-- ==== Sys2Proof/Word.lean ====
section
/-! DEFINITION. The word types of `spec/00_scope.md` R10 and R13: nibbles, bytes and 16-bit values, all unsigned. -/

namespace Sys2Proof

/-- Four bits: the fragment count `N` (R74). -/
abbrev Nibble := BitVec 4

/-- A byte, an unsigned integer 0 to 255, bit 0 least significant (R10). -/
abbrev Byte := BitVec 8

/-- A 16-bit unsigned value: a CRC result, a Modbus address, a Modbus quantity (R13). -/
abbrev Word16 := BitVec 16

end Sys2Proof
end

