-- ==== Sys2Proof/Config.lean ====
section
/-! DEFINITION. What an implementation fixes when the block is built: the parameters of `spec/00_scope.md` R9. The
default tables and `Config.default` stand in `Machine/Tables.lean`. -/

namespace Sys2Proof

/-! ### Identity (R1) -/

/-- What a model carries to say which block it models (R1). -/
structure Identity where
  name : String
  sourceRevision : String
deriving DecidableEq, Repr

/-- The block's identity (R1): its source gives no vendor, part number or ISA name, and its revision is the one stated by
the person who commissioned the spec. -/
def identity : Identity where
  name := "jkEssMonitor-framing-block"
  sourceRevision := "v7"

/-! ### Parameters (R9) -/

/-- What `REM_WIDTH` may be: at least the four bits that hold every value a fragment count takes (R25). DEDUCED, safe:
log 8. -/
abbrev RemWidth := { w : Nat // 4 ≤ w }

/-- A device identifier, and the input `ctx_device_id` (R34): an unsigned number of `DEVID_WIDTH` bits, a bound that the
operations which take it check (log 8). -/
abbrev DevId := Nat

/-- A buffer: a finite sequence of bytes indexed from 0 (R11). -/
abbrev Buffer := List Byte

/-- The two values `MAGIC3_MASK` may take (R9, R77). -/
inductive Magic3Mask where
  /-- `0xFF`: byte 3 is compared exactly, so `N` is always 9 (R145). -/
  | exact
  /-- `0x0F`: the upper nibble of byte 3 is free to carry `N` (R77). -/
  | upperFree
deriving DecidableEq, Repr

/-- The parameters of R9 that can change what an operation does. They are data held in the state and written by no
operation (R32, R62), so that every statement about the machine is about every admissible build. -/
structure Config where
  /-- `HI_TABLE` (R29, R56). -/
  hiTable : Vector Byte 256
  /-- `LO_TABLE` (R29, R57). -/
  loTable : Vector Byte 256
  /-- `MAGIC3_MASK` (R77). -/
  magic3Mask : Magic3Mask
  /-- `ACC_CAPACITY`, `none` for unbounded (R26). -/
  accCapacity : Option Nat
  /-- `MAX_CHUNK_LEN`, `none` for unbounded (R26). -/
  maxChunkLen : Option Nat
  /-- `REM_WIDTH`, the bits of the register `rem` (R25). -/
  remWidth : RemWidth
  /-- `DEVID_WIDTH`, the bits of a device identifier (R34). -/
  devIdWidth : Nat
  /-- `EVENT_CODE`, the numbers of the eleven rows of R221 in the order of its table. -/
  eventCodes : Vector Nat 11
deriving DecidableEq, Repr

end Sys2Proof
end

