-- ==== Sys2Proof/Syntax.lean ====
section
/-! DEFINITION. The operations: what the environment presents (`Operation`), what a chunk decodes to (`ChunkOp`), and the
one inductive `Instr` with a constructor for each row of `spec/opcode_table.json`. -/

namespace Sys2Proof

/-- The sequencing state `fsm` (R23). `Complete` is transient (R130) and no value of the register. -/
inductive Fsm where
  | idle
  | assembling
deriving DecidableEq, Repr

/-- The seven chunk classes of R78. -/
inductive ChunkClass where
  | empty
  | frameStart
  | frameRestart
  | fragment
  | mbWriteReq
  | mbWriteRsp
  | unrecognized
deriving DecidableEq, Repr

/-- One transaction presented at the block's boundary (R2, R86): what the host or the transport hands over. -/
inductive Operation where
  /-- One RawChunk with the `ctx_device_id` current at its arrival (R214). -/
  | chunk (bytes : Buffer) (ctx : DevId)
  /-- A direct call of the CRC engine (R100). -/
  | crc16 (buffer : Buffer) (length : Nat)
  /-- A direct call of the checksum engine (R110). -/
  | csum (buffer : Buffer)
  /-- A direct call of the validator (R190). -/
  | validate (frame : Buffer) (ctx : DevId)
  /-- R210. -/
  | reset
  /-- R212. -/
  | status
deriving DecidableEq, Repr

/-- A decoded chunk: its class and the fields its format gives (R71 to R73). `ctx_device_id` is kept by the classes that
pass it on to `VALIDATE`. -/
inductive ChunkOp where
  /-- A chunk of length 0 (R136). -/
  | empty
  /-- A magic chunk in `Idle` (R131): the fragment count and the bytes after the four magic bytes. -/
  | frameStart (n : Nibble) (rest : Buffer) (ctx : DevId)
  /-- A magic chunk in `Assembling` (R133). -/
  | frameRestart (n : Nibble) (rest : Buffer) (ctx : DevId)
  /-- A non-empty, non-magic chunk in `Assembling` (R134). -/
  | fragment (bytes : Buffer) (ctx : DevId)
  /-- A request (R72, R162): unit id, address, quantity, write byte count, and the chunk's last four bytes (offsets 7 to
  10), which hold data, CRC field and unread bytes as `wbc` says (R76, R85). -/
  | mbWriteReq (unit : Byte) (addr qty : Word16) (wbc d0 d1 d2 d3 : Byte)
  /-- A response (R73, R166): unit id, address, quantity, CRC field. -/
  | mbWriteRsp (unit : Byte) (addr qty crc : Word16)
  /-- Any other non-empty chunk in `Idle` (R137). -/
  | unrecognized (raw : Buffer)
deriving DecidableEq, Repr

/-- The instruction set: one constructor for each row of `spec/opcode_table.json` (R2, R78, R88). The first seven are the
chunk classes, decoded from bytes and `fsm`; the last six are the direct operations. -/
inductive Instr where
  /-- `EMPTY` (R136). -/
  | empty
  /-- `FRAME_START` (R131). -/
  | frameStart (n : Nibble) (rest : Buffer) (ctx : DevId)
  /-- `FRAME_RESTART` (R133). -/
  | frameRestart (n : Nibble) (rest : Buffer) (ctx : DevId)
  /-- `FRAGMENT` (R134). -/
  | fragment (bytes : Buffer) (ctx : DevId)
  /-- `MB_WRITE_REQ` (R162). -/
  | mbWriteReq (unit : Byte) (addr qty : Word16) (wbc d0 d1 d2 d3 : Byte)
  /-- `MB_WRITE_RSP` (R166). -/
  | mbWriteRsp (unit : Byte) (addr qty crc : Word16)
  /-- `UNRECOGNIZED` (R137). -/
  | unrecognized (raw : Buffer)
  /-- `CHUNK` (R214). -/
  | chunk (bytes : Buffer) (ctx : DevId)
  /-- `CRC16` (R100). -/
  | crc16 (buffer : Buffer) (length : Nat)
  /-- `CSUM` (R110). -/
  | csum (buffer : Buffer)
  /-- `VALIDATE` (R190). -/
  | validate (frame : Buffer) (ctx : DevId)
  /-- `RESET` (R210). -/
  | reset
  /-- `STATUS` (R212). -/
  | status
deriving DecidableEq, Repr

end Sys2Proof
end

