-- ==== Sys2Proof/Decode.lean ====
section
/-! DEFINITION. Chunk decode (`spec/30_encoding.md`): field assembly, the magic compare, the classes of R78, the rows of
`spec/opcode_table.json` as R88 reads them, the decoder, and after it the encoder. Nothing is rejected: "every (state,
chunk) has exactly one class" (R78). -/

namespace Sys2Proof

/-! ### Bytes, fields, buffers -/

/-- `b[7:4]` (R10). -/
def upperNibble (b : Byte) : Nibble := b.extractLsb' 4 4

/-- The byte whose upper nibble is `n` and whose lower nibble is 0: byte 3 of a start chunk (R74, R77). -/
def nibbleByte (n : Nibble) : Byte := n ++ (0 : BitVec 4)

/-- `be16(b0, b1) = b0 * 256 + b1` (R13): the first byte is the high-order byte. -/
def be16 (b0 b1 : Byte) : Word16 := b0 ++ b1

/-- Bits 15:8, the byte a big-endian field sends first (R13). -/
def highByte (w : Word16) : Byte := w.extractLsb' 8 8

/-- Bits 7:0, the byte a big-endian field sends second (R13). -/
def lowByte (w : Word16) : Byte := w.extractLsb' 0 8

/-- `buf[i]`, defined only for `i < len(buf)` (R11, R52): no byte is invented outside. -/
def readByte (buf : Buffer) (i : Nat) : Option Byte := buf[i]?

/-- `buf[lo:hi)`, defined only for `lo <= hi <= len(buf)` (R11). -/
def slice (buf : Buffer) (lo hi : Nat) : Option Buffer :=
  if lo ≤ hi ∧ hi ≤ buf.length then some ((buf.drop lo).take (hi - lo)) else none

/-- `N = chunk[3][7:4]` (R74), of a buffer that has a byte 3. -/
def fragmentCount (buf : Buffer) : Option Nibble := (readByte buf 3).map upperNibble

/-- Is a length within a capacity that may be unbounded (R146)? -/
def withinBound (bound : Option Nat) (len : Nat) : Bool :=
  match bound with
  | none => true
  | some m => decide (len ≤ m)

/-- Does a device identifier fit in `DEVID_WIDTH` bits (R34)? -/
def fitsDevId (width : Nat) (id : DevId) : Bool := decide (id < 2 ^ width)

/-- The bit of the register `fsm` (R21, R33): `Idle` is 0, `Assembling` is 1. -/
def Fsm.bit : Fsm → BitVec 1
  | .idle => 0
  | .assembling => 1

/-! ### The magic compare (R77) -/

/-- The spec's own default of `MAGIC3_MASK` (R9). DESIGN CHOICE, unsafe: log 6. -/
def defaultMask : Magic3Mask := .exact

/-- The byte `MAGIC3_MASK` stands for (R9). -/
def maskByte : Magic3Mask → Byte
  | .exact => 0xFF
  | .upperFree => 0x0F

/-- The function code `MB_FC` (R8). -/
def mbFunctionCode : Byte := 0x10

/-- The compare of byte 3 with `0x90` under `MAGIC3_MASK` (R77). -/
def magic3Ok (mask : Magic3Mask) (b : Byte) : Bool :=
  (b &&& maskByte mask) == (0x90 &&& maskByte mask)

/-- `is_magic(chunk)` (R77): false on a chunk of fewer than four bytes. -/
def isMagic (mask : Magic3Mask) (chunk : Buffer) : Bool :=
  readByte chunk 0 == some 0x55 && readByte chunk 1 == some 0xAA && readByte chunk 2 == some 0xEB
    && (readByte chunk 3).any (magic3Ok mask)

/-- The fragment counts a start chunk can carry: 9 alone under `0xFF`, any nibble under `0x0F` (R74). -/
def admitsCount (mask : Magic3Mask) (n : Nibble) : Bool := magic3Ok mask (nibbleByte n)

/-! ### The classes (R78) -/

/-- `classify(fsm, chunk)`, line by line (R78). -/
def classify (mask : Magic3Mask) (fsm : Fsm) (chunk : Buffer) : ChunkClass :=
  if chunk.length = 0 then .empty
  else if isMagic mask chunk ∧ fsm = .idle then .frameStart
  else if isMagic mask chunk ∧ fsm = .assembling then .frameRestart
  else if fsm = .assembling then .fragment
  else if chunk.length = 11 ∧ readByte chunk 1 = some mbFunctionCode then .mbWriteReq
  else if chunk.length = 8 ∧ readByte chunk 1 = some mbFunctionCode then .mbWriteRsp
  else .unrecognized

/-! ### The opcode table (R88) -/

/-- A row's `length` (R88). -/
inductive LengthRule where
  | exactly (n : Nat)
  | atLeast (n : Nat)
deriving DecidableEq, Repr

/-- Does a length satisfy a row's `length`? -/
def lengthOk : LengthRule → Nat → Bool
  | .exactly n, len => len == n
  | .atLeast n, len => decide (n ≤ len)

/-- A row of `spec/opcode_table.json` for a chunk class. `fsm = none` is `"any"`; byte 0 of the chunk lies in bits 31:24
of `pattern` and `mask` (R88). -/
structure TableRow where
  cls : ChunkClass
  pattern : BitVec 32
  mask : BitVec 32
  length : LengthRule
  fsm : Option Fsm
  priority : Nat
deriving DecidableEq, Repr

/-- Byte `k` (0 to 3) of a row's 32-bit number: bits `31 - 8k` down to `24 - 8k` (R88). -/
def rowByte (w : BitVec 32) (k : Nat) : Byte := w.extractLsb' (24 - 8 * k) 8

/-- One byte compare of a row: a mask byte of 0 compares nothing, any other needs the chunk to reach that far (R88). -/
def rowByteOk (row : TableRow) (chunk : Buffer) (k : Nat) : Bool :=
  rowByte row.mask k == 0 ||
    (readByte chunk k).any fun b => (b &&& rowByte row.mask k) == (rowByte row.pattern k &&& rowByte row.mask k)

/-- Does a row match this chunk in this state (R88)? -/
def rowMatches (row : TableRow) (fsm : Fsm) (chunk : Buffer) : Bool :=
  lengthOk row.length chunk.length && row.fsm.all (fun f => f == fsm)
    && rowByteOk row chunk 0 && rowByteOk row chunk 1 && rowByteOk row chunk 2 && rowByteOk row chunk 3

/-- `match` of the two frame rows, with the alternative their note gives for `MAGIC3_MASK = 0x0F`. -/
def framePattern : Magic3Mask → BitVec 32
  | .exact => 0x55AAEB90
  | .upperFree => 0x55AAEB00

/-- `mask` of the two frame rows, with the alternative their note gives for `MAGIC3_MASK = 0x0F`. -/
def frameMask : Magic3Mask → BitVec 32
  | .exact => 0xFFFFFFFF
  | .upperFree => 0xFFFFFF0F

/-- The seven class rows of `spec/opcode_table.json`, in the order of their priority. -/
def opcodeRows (mask : Magic3Mask) : List TableRow :=
  [ ⟨.empty, 0, 0, .exactly 0, none, 1⟩,
    ⟨.frameStart, framePattern mask, frameMask mask, .atLeast 4, some .idle, 2⟩,
    ⟨.frameRestart, framePattern mask, frameMask mask, .atLeast 4, some .assembling, 3⟩,
    ⟨.fragment, 0, 0, .atLeast 1, some .assembling, 4⟩,
    ⟨.mbWriteReq, 0x00100000, 0x00FF0000, .exactly 11, some .idle, 5⟩,
    ⟨.mbWriteRsp, 0x00100000, 0x00FF0000, .exactly 8, some .idle, 6⟩,
    ⟨.unrecognized, 0, 0, .atLeast 1, some .idle, 7⟩ ]

/-- The class the opcode table gives: the matching row of lowest priority number (R88). -/
def tableClass (mask : Magic3Mask) (fsm : Fsm) (chunk : Buffer) : Option ChunkClass :=
  ((opcodeRows mask).find? fun row => rowMatches row fsm chunk).map TableRow.cls

/-! ### The decoder -/

/-- The fields of a start chunk: the count `N` and the bytes after the magic (R71, R74); none for any other chunk. -/
def frameFields (mask : Magic3Mask) (chunk : Buffer) : Option (Nibble × Buffer) :=
  match chunk with
  | b0 :: b1 :: b2 :: b3 :: rest =>
    if isMagic mask (b0 :: b1 :: b2 :: b3 :: rest) then some (upperNibble b3, rest) else none
  | _ => none

/-- A non-empty, non-magic chunk in `Idle`: the two Modbus formats (R72, R73, R75), else unrecognised (R84). -/
def decodeIdle (chunk : Buffer) : ChunkOp :=
  match chunk with
  | [u, f, a1, a0, q1, q0, w, d0, d1, d2, d3] =>
    if f = mbFunctionCode then .mbWriteReq u (be16 a1 a0) (be16 q1 q0) w d0 d1 d2 d3 else .unrecognized chunk
  | [u, f, a1, a0, q1, q0, c1, c0] =>
    if f = mbFunctionCode then .mbWriteRsp u (be16 a1 a0) (be16 q1 q0) (be16 c1 c0) else .unrecognized chunk
  | _ => .unrecognized chunk

/-- A chunk decoded in a state (R78, R79): total, no chunk is rejected. -/
def decodeChunk (mask : Magic3Mask) (fsm : Fsm) (chunk : Buffer) (ctx : DevId) : ChunkOp :=
  match chunk with
  | [] => .empty
  | b :: bs =>
    match frameFields mask (b :: bs), fsm with
    | some (n, rest), .idle => .frameStart n rest ctx
    | some (n, rest), .assembling => .frameRestart n rest ctx
    | none, .assembling => .fragment (b :: bs) ctx
    | none, .idle => decodeIdle (b :: bs)

/-- The class instruction a decoded chunk stands for. -/
def ChunkOp.toInstr : ChunkOp → Instr
  | .empty => .empty
  | .frameStart n rest ctx => .frameStart n rest ctx
  | .frameRestart n rest ctx => .frameRestart n rest ctx
  | .fragment bytes ctx => .fragment bytes ctx
  | .mbWriteReq unit addr qty wbc d0 d1 d2 d3 => .mbWriteReq unit addr qty wbc d0 d1 d2 d3
  | .mbWriteRsp unit addr qty crc => .mbWriteRsp unit addr qty crc
  | .unrecognized raw => .unrecognized raw

/-- The class of a decoded chunk (R78). -/
def ChunkOp.cls : ChunkOp → ChunkClass
  | .empty => .empty
  | .frameStart _ _ _ => .frameStart
  | .frameRestart _ _ _ => .frameRestart
  | .fragment _ _ => .fragment
  | .mbWriteReq _ _ _ _ _ _ _ _ => .mbWriteReq
  | .mbWriteRsp _ _ _ _ => .mbWriteRsp
  | .unrecognized _ => .unrecognized

/-- The instruction a presented operation is: a chunk is decoded to its class (R78), a direct operation is itself (R86). -/
def decode (mask : Magic3Mask) (fsm : Fsm) : Operation → Instr
  | .chunk bytes ctx => (decodeChunk mask fsm bytes ctx).toInstr
  | .crc16 buffer length => .crc16 buffer length
  | .csum buffer => .csum buffer
  | .validate frame ctx => .validate frame ctx
  | .reset => .reset
  | .status => .status

/-! ### The encoder -/

/-- The bytes of a start chunk (R71): magic, with `N` in the upper nibble of byte 3, and the rest. -/
def frameWire (n : Nibble) (rest : Buffer) : Buffer := 0x55 :: 0xAA :: 0xEB :: nibbleByte n :: rest

/-- The bytes of a request (R72). -/
def mbReqWire (unit : Byte) (addr qty : Word16) (wbc d0 d1 d2 d3 : Byte) : Buffer :=
  [unit, mbFunctionCode, highByte addr, lowByte addr, highByte qty, lowByte qty, wbc, d0, d1, d2, d3]

/-- The bytes of a response (R73). -/
def mbRspWire (unit : Byte) (addr qty crc : Word16) : Buffer :=
  [unit, mbFunctionCode, highByte addr, lowByte addr, highByte qty, lowByte qty, highByte crc, lowByte crc]

/-- The bytes on the link of a decoded chunk. -/
def ChunkOp.wire : ChunkOp → Buffer
  | .empty => []
  | .frameStart n rest _ => frameWire n rest
  | .frameRestart n rest _ => frameWire n rest
  | .fragment bytes _ => bytes
  | .mbWriteReq unit addr qty wbc d0 d1 d2 d3 => mbReqWire unit addr qty wbc d0 d1 d2 d3
  | .mbWriteRsp unit addr qty crc => mbRspWire unit addr qty crc
  | .unrecognized raw => raw

/-- The operation the environment presents to have an instruction run. A class that drops `ctx_device_id` is presented
with the default 0 (R87); a direct operation has no bytes on the link (R86). -/
def encode : Instr → Operation
  | .empty => .chunk [] 0
  | .frameStart n rest ctx => .chunk (frameWire n rest) ctx
  | .frameRestart n rest ctx => .chunk (frameWire n rest) ctx
  | .fragment bytes ctx => .chunk bytes ctx
  | .mbWriteReq unit addr qty wbc d0 d1 d2 d3 => .chunk (mbReqWire unit addr qty wbc d0 d1 d2 d3) 0
  | .mbWriteRsp unit addr qty crc => .chunk (mbRspWire unit addr qty crc) 0
  | .unrecognized raw => .chunk raw 0
  | .chunk bytes ctx => .chunk bytes ctx
  | .crc16 buffer length => .crc16 buffer length
  | .csum buffer => .csum buffer
  | .validate frame ctx => .validate frame ctx
  | .reset => .reset
  | .status => .status

/-! ### Words of the opcode table -/

/-- Byte `k` of a chunk given as a number: 32-bit words, the first in bits 31:0, each with its first byte in its top
eight bits (R88). -/
def wordChunkByte (w k : Nat) : Byte := BitVec.ofNat 8 (w / 2 ^ (32 * (k / 4) + 8 * (3 - k % 4)))

/-- The chunk a table word stands for: no bits are the empty chunk, any others a chunk with zeros after them, as long as
the longest format of fixed length (11 bytes, R72) or the bits themselves. DESIGN CHOICE, safe: log 13. -/
def tableChunk (nbits w : Nat) : Buffer :=
  if nbits = 0 then [] else (List.range (max 11 ((nbits + 7) / 8))).map (wordChunkByte (w % 2 ^ nbits))

/-- The instruction the decoder reads from a table word, in the state after reset (`Idle`) and under the default mask.
DESIGN CHOICE, safe: log 13. -/
def decodeTableWord (nbits w : Nat) : Option Instr :=
  some (decode defaultMask .idle (.chunk (tableChunk nbits w) 0))

end Sys2Proof
end

