-- ==== Sys2Proof/Machine/State.lean ====
section
/-! DEFINITION. The events, the results and the state of the block (`spec/10_state.md`, `spec/60_exceptions.md` R220), the
reasons a step can stop, and the state after reset. -/

namespace Sys2Proof.Machine

/-! ### Events -/

/-- The record types 1, 2 and 3 (R83, R193). -/
inductive RecordType where
  | config
  | state
  | deviceInfo
deriving DecidableEq, Repr

/-- The source of a valid frame (R83, R194). -/
inductive Source where
  | master
  | slave
deriving DecidableEq, Repr

/-- Why the validator rejected a frame, with what the event records beside the frame (R220, R222). -/
inductive Rejection where
  | frameTooShort
  | checksumMismatch (expected found : Byte)
  | unknownRecordType (rtype : Byte)
deriving DecidableEq, Repr

/-- Request or response (R162, R166). -/
inductive ExchangeKind where
  | request
  | response
deriving DecidableEq, Repr

/-- The register group of a write address (R82, R164). -/
inductive Category where
  | configData
  | stateData
  | uncategorized
deriving DecidableEq, Repr

/-- The fields of `ModbusExchange` (R220); `none` is "absent" (R162, R163, R166). -/
structure Exchange where
  kind : ExchangeKind
  raw : Buffer
  unit : Byte
  addr : Word16
  qty : Word16
  wbc : Option Byte
  data : Option Buffer
  crcField : Option Word16
  crcCalc : Option Word16
  crcOk : Bool
  category : Category
deriving DecidableEq, Repr

/-- One item of the output sequence: the complete list of R220. -/
inductive Event where
  /-- The reassembler finished an assembly, not yet validated (R135). -/
  | frameEmitted (frame : Buffer)
  /-- The frame passed length, checksum and type (R190, R195). -/
  | frameValid (frame : Buffer) (rtype : RecordType) (source : Source) (deviceId : DevId)
  /-- The frame is discarded (R190). -/
  | frameRejected (why : Rejection) (frame : Buffer)
  /-- An assembly was superseded before completion; carries every byte of it (R133). -/
  | assemblyAbandoned (partialFrame : Buffer)
  /-- A register-write exchange was seen; `crcOk = false` is `CRCMismatch` (R162, R166, R167). -/
  | modbusExchange (exchange : Exchange)
  /-- A chunk matched nothing and was dropped (R137). -/
  | unrecognized (raw : Buffer)
deriving DecidableEq, Repr

/-- The error `OutOfRange` with what it records: the buffer and the offending length (R222). -/
structure OutOfRange where
  buffer : Buffer
  length : Nat
deriving DecidableEq, Repr

/-- What an operation returns to its caller, beside its events (R15). The model's own field holds the latest one: log 3. -/
inductive OpResult where
  /-- The operation returns nothing (`CHUNK`, `VALIDATE`, `RESET`). -/
  | nothing
  /-- The 16-bit value of `CRC16` (R100). -/
  | crc (value : Word16)
  /-- The byte of `CSUM` (R110). -/
  | checksum (value : Byte)
  /-- A direct `CRC16` or `CSUM` raised `OutOfRange` and gave no value (R103, R111, R223). -/
  | outOfRange (error : OutOfRange)
  /-- The triple of `STATUS` (R33, R212): the bit of `fsm`, `rem`, and the length of `acc`. -/
  | status (state : BitVec 1) (remaining accLen : Nat)
deriving DecidableEq, Repr

/-! ### The state -/

/-- Everything the block holds. `fsm`, `rem`, `acc` are its whole persistent state (R20, R21); `cfg` holds the constant
tables and the other build-time parameters (R9, R29, R32), written by nothing; `events` and `result` are its outputs
(R14, R15); `input` is the queue of presented operations at its boundary, oldest first (R2, R263). -/
structure State where
  /-- The sequencing state (R23). -/
  fsm : Fsm
  /-- `remainingFragments`, the number held in a register of `REM_WIDTH` bits (R21, R25). -/
  rem : Nat
  /-- `accumulated` (R21, R26). -/
  acc : Buffer
  /-- The build-time parameters, the two tables among them (R9, R21). -/
  cfg : Config
  /-- MODEL'S OWN: the operations the environment has presented and the block has not yet run, oldest first. Log 1. -/
  input : List Operation
  /-- The block's output sequence so far, oldest first (R14). Log 3. -/
  events : List Event
  /-- MODEL'S OWN: what the latest operation returned (R15). Log 3. -/
  result : OpResult
deriving DecidableEq, Repr

/-- `inProgress` of the source: no register of its own (R22, R23). -/
def State.inProgress (s : State) : Bool := s.fsm == .assembling

/-- Reasons the machine could stop with a fault: NONE. No behaviour of the block is a fault in the sense of stopping the
machine (`spec/93_implementation_defined.md`, R226 to R228): errors are events or, for a direct call, the result
`OutOfRange`. Log 14. -/
inductive Fault where
deriving DecidableEq, Repr

/-- Reasons an operation is refused. -/
inductive Refusal where
  /-- Raised by `exec` alone, for an instruction without a meaning. Safe. No arm uses it. -/
  | notModelled (mnemonic : String)
  /-- Raised by every chunk class when the chunk is longer than a finite `MAX_CHUNK_LEN`: R146 asks for this refusal. Safe:
  the machine stops where the source gives no meaning. Never with the default parameters. -/
  | chunkTooLong
  /-- Raised by `FRAME_START`, `FRAME_RESTART` and `FRAGMENT` when the append would pass a finite `ACC_CAPACITY`: R146 asks
  for this refusal. Safe, as above. Never with the default parameters. -/
  | accCapacityExceeded
  /-- Raised by `FRAME_START`, `FRAME_RESTART`, `FRAGMENT` and `VALIDATE` when `ctx_device_id` does not fit in
  `DEVID_WIDTH` bits: no such value can be presented to the block (R34). Safe, as above. Log 8. -/
  | contextTooWide
  /-- Raised by a class instruction given to `exec` in a state where R78 does not put its chunk in that class: such a pair
  is no operation of the block. Safe: `step` never does it, since it runs what the decoder gave. Log 12. -/
  | notOfThisClass
deriving DecidableEq, Repr

/-- The state after reset of a block built with the parameters `cfg` (R37, R260): `Idle`, 0, empty, no event. The queue and
the result are the model's own fields: DESIGN CHOICE, log 1 and log 3. -/
def State.resetWith (cfg : Config) : State where
  fsm := .idle
  rem := 0
  acc := []
  cfg := cfg
  input := []
  events := []
  result := .nothing

/-- The state after reset, with the default parameters (R9, R37, R260). -/
def State.reset : State := State.resetWith defaultConfig

end Sys2Proof.Machine
end

