-- ==== Sys2Proof/Machine/Ops.lean ====
section
/-! DEFINITION. The named operations over the state that the meanings share: reporting an event, answering a caller, the
two writes of `acc` (`spec/20_memory.md` R54), the delivery of a chunk, and the queue of presented operations.
TAKING AN EXCEPTION: the block has no trap entry and no trap return (`spec/60_exceptions.md` R226, R227): "The effect of an
error is exactly the event of rule R220 plus the state column of rule R222". `State.emit` is that one shared operation. -/

namespace Sys2Proof.Machine

/-- What one step or one meaning answers. -/
abbrev Outcome := Host.Outcome State Fault Refusal

/-- `emit E(args)`: append an event to the output sequence (R14). -/
def State.emit (e : Event) (s : State) : State := { s with events := s.events ++ [e] }

/-- Hand the operation's result to its caller (R15). -/
def State.answer (r : OpResult) (s : State) : State := { s with result := r }

/-- The reassembler's registers as after initialisation: `fsm <- Idle`, `rem <- 0`, `acc <- []` (R133, R135, R210). -/
def State.clearAssembly (s : State) : State := { s with fsm := .idle, rem := 0, acc := [] }

/-- `rem <- N` into a register of `REM_WIDTH` bits (R25, R131). -/
def loadCount (cfg : Config) (n : Nibble) : Nat := (n.setWidth cfg.remWidth.val).toNat

/-- `rem - 1` in a register of `REM_WIDTH` bits (R25, R134); applied only when `rem >= 1` (R115), so no rule sees a wrap. -/
def countDown (cfg : Config) (rem : Nat) : Nat := (BitVec.ofNat cfg.remWidth.val rem - 1).toNat

/-- Take the input `ctx_device_id` of an operation: refused if it does not fit in `DEVID_WIDTH` bits (R34, log 8). -/
def State.takeContext (ctx : DevId) (s : State) (operation : Outcome) : Outcome :=
  if fitsDevId s.cfg.devIdWidth ctx then operation else .refused .contextTooWide

/-- `acc <- acc ++ chunk` (R54); none if that would pass a finite `ACC_CAPACITY` (R146). -/
def State.append (chunk : Buffer) (s : State) : Option State :=
  if withinBound s.cfg.accCapacity (s.acc.length + chunk.length) then some { s with acc := s.acc ++ chunk } else none

/-- `acc <- chunk`: a clear followed by an append (R54, C3). -/
def State.store (chunk : Buffer) (s : State) : Option State := State.append chunk { s with acc := [] }

/-- The class R78 gives a chunk in this state. -/
def State.classOf (s : State) (chunk : Buffer) : ChunkClass := classify s.cfg.magic3Mask s.fsm chunk

/-- Deliver a chunk to the operation of one class: refused if longer than `MAX_CHUNK_LEN` (R146), refused if R78 does
not give it that class in this state (log 12), else the class's operation. -/
def State.deliver (cls : ChunkClass) (chunk : Buffer) (s : State) (operation : Outcome) : Outcome :=
  if withinBound s.cfg.maxChunkLen chunk.length = false then .refused .chunkTooLong
  else if s.classOf chunk = cls then operation
  else .refused .notOfThisClass

/-- Present further operations, to be run after those already waiting (R60, R263). -/
def State.present (ops : List Operation) (s : State) : State := { s with input := s.input ++ ops }

/-- Take the oldest presented operation (R60); none when nothing is presented. -/
def State.fetch (s : State) : Option (Operation × State) :=
  match s.input with
  | [] => none
  | op :: rest => some (op, { s with input := rest })

end Sys2Proof.Machine
end

