-- ==== Sys2Proof/Machine/Operands.lean ====
section
/-! DEFINITION. The fields the meanings read out of a chunk or a frame (`spec/30_encoding.md` R75, R76, `spec/20_memory.md`
R63): fixed offsets, and the one field whose place depends on data. -/

namespace Sys2Proof.Machine

/-- Two consecutive bytes read big-endian (R55); none if either lies outside the buffer (R52). -/
def be16At (buf : Buffer) (i : Nat) : Option Word16 :=
  match readByte buf i, readByte buf (i + 1) with
  | some b0, some b1 => some (be16 b0 b1)
  | _, _ => none

/-- Length of a request's CRC window: the first `7 + wbc` bytes (R76), over the naturals (R115). -/
def reqWindow (wbc : Byte) : Nat := 7 + wbc.toNat

/-- Does a request's layout lie within its 11 bytes: `9 + wbc <= 11` (R76, R163)? -/
def reqInReach (wbc : Byte) : Bool := decide (9 + wbc.toNat ≤ 11)

/-- `data = chunk[7 : 7 + wbc)` of a request (R75). -/
def reqData (chunk : Buffer) (wbc : Byte) : Option Buffer := slice chunk 7 (reqWindow wbc)

/-- The CRC field of a request: the two bytes after the data, the first the high-order one (R76). DESIGN CHOICE of the spec,
unsafe: log 9. -/
def reqCrcField (chunk : Buffer) (wbc : Byte) : Option Word16 := be16At chunk (reqWindow wbc)

/-- Length of a response's CRC window (R76). -/
abbrev rspWindow : Nat := 6

/-- The mapping of record-type bytes: 1, 2, 3, and no other (R83, R193). -/
def recordTypeOf (b : Byte) : Option RecordType :=
  if b = 1 then some .config else if b = 2 then some .state else if b = 3 then some .deviceInfo else none

/-- The number a record type is carried as (R83). -/
def RecordType.code : RecordType → Byte
  | .config => 1
  | .state => 2
  | .deviceInfo => 3

/-- `category_of(addr)` (R164): the addresses `MB_ADDR_CONFIG` and `MB_ADDR_STATE` of R8. -/
def categoryOf (addr : Word16) : Category :=
  if addr = 0x161E then .configData else if addr = 0x1620 then .stateData else .uncategorized

end Sys2Proof.Machine
end

