-- ==== Sys2Proof/Machine/Flags.lean ====
section
/-! DEFINITION. The outcomes that stand in for flags (`spec/10_state.md` R31): none persists, each is a field of an event or
decides between two events. With them the kinds and codes of events (`spec/60_exceptions.md` R221, R222). -/

namespace Sys2Proof.Machine

/-- `crc_ok`: the computed CRC equals the CRC field (R31, R162, R166); false where either is absent (R163). -/
def crcOk (computed field : Option Word16) : Bool :=
  match computed, field with
  | some c, some f => c == f
  | _, _ => false

/-- `csum_ok`: the stored byte equals the computed checksum (R31, R192). -/
def csumOk (stored computed : Byte) : Bool := stored == computed

/-- `is_master`: the record-source byte is 0 (R31, R194). -/
def isMaster (sourceByte : Byte) : Bool := sourceByte == 0

/-- The source of a frame and its device identifier: Master forces 0, Slave takes the injected value (R194). -/
def sourceOf (sourceByte : Byte) (ctx : DevId) : Source × DevId :=
  if isMaster sourceByte then (.master, 0) else (.slave, ctx)

/-- The error kinds (R222). -/
inductive ErrorKind where
  | frameTooShort
  | checksumMismatch
  | unknownRecordType
  | crcMismatch
  | assemblyAbandoned
  | outOfRange
  /-- Raised only by the record decoder, outside this block (R197, R222): no event of the model has it. -/
  | truncatedPayload
deriving DecidableEq, Repr

/-- The error kind an event reports (R222); `FrameEmitted`, `FrameValid`, a matched exchange and `Unrecognized` report
none (R137, R167). -/
def Event.errorKind : Event → Option ErrorKind
  | .frameEmitted _ => none
  | .frameValid _ _ _ _ => none
  | .frameRejected .frameTooShort _ => some .frameTooShort
  | .frameRejected (.checksumMismatch _ _) _ => some .checksumMismatch
  | .frameRejected (.unknownRecordType _) _ => some .unknownRecordType
  | .assemblyAbandoned _ => some .assemblyAbandoned
  | .modbusExchange x => if x.crcOk then none else some .crcMismatch
  | .unrecognized _ => none

/-- The row of R221 (0 for the first) an event belongs to. -/
def Event.codeRow : Event → Fin 11
  | .frameEmitted _ => 0
  | .frameValid _ _ _ _ => 1
  | .frameRejected .frameTooShort _ => 2
  | .frameRejected (.checksumMismatch _ _) _ => 3
  | .frameRejected (.unknownRecordType _) _ => 4
  | .assemblyAbandoned _ => 5
  | .modbusExchange x => if x.crcOk then 6 else 7
  | .unrecognized _ => 8

/-- The number of an event on an event port, by `EVENT_CODE` (R221). -/
def Event.code (cfg : Config) (e : Event) : Nat := cfg.eventCodes[e.codeRow]

/-- The number of a result: `OutOfRange` has one, every other result is "no event", 0 (R221). -/
def OpResult.code (cfg : Config) : OpResult → Nat
  | .outOfRange _ => cfg.eventCodes[9]
  | .nothing => 0
  | .crc _ => 0
  | .checksum _ => 0
  | .status _ _ _ => 0

end Sys2Proof.Machine
end

