-- ==== Sys2Proof/Machine/Integrity.lean ====
section
/-! DEFINITION. The integrity engines (`spec/40_integrity_engines.md`): `CRC16` and `CSUM` as pure functions, with their
transient registers (`spec/10_state.md` R27, R28, R30), and their meanings as direct operations. -/

namespace Sys2Proof.Machine

/-! ### CRC16 -/

/-- The transient registers `crc_hi` and `crc_lo` of one `CRC16` (R27). They are no part of State: R27 gives them "no place
in the persistent state". Log 11. -/
structure CrcRegs where
  hi : Byte
  lo : Byte
deriving DecidableEq, Repr

/-- A table read at an 8-bit index; it cannot be out of range (R59). -/
def tableRead (table : Vector Byte 256) (i : Byte) : Byte := table[i.toNat]'i.isLt

/-- `CRC_SEED_HI`, `CRC_SEED_LO` (R8). -/
def crcSeed : CrcRegs := ⟨0xFF, 0xFF⟩

/-- The byte step (R101): `crc_idx` from the old `crc_hi`, both tables read at it, the old `crc_lo` read before it is
overwritten. -/
def crcStep (cfg : Config) (r : CrcRegs) (b : Byte) : CrcRegs :=
  let crcIdx := r.hi ^^^ b
  ⟨r.lo ^^^ tableRead cfg.hiTable crcIdx, tableRead cfg.loTable crcIdx⟩

/-- The registers after a run of bytes from the seed (R101). -/
def crcRegs (cfg : Config) (bytes : Buffer) : CrcRegs := bytes.foldl (crcStep cfg) crcSeed

/-- `crc_hi * 256 + crc_lo` (R100, R102). -/
def CrcRegs.value (r : CrcRegs) : Word16 := be16 r.hi r.lo

/-- `CRC16(buffer, length)` (R100): `OutOfRange` before any byte is processed if `length` passes the buffer (R103). -/
def crc16 (cfg : Config) (buffer : Buffer) (length : Nat) : Except OutOfRange Word16 :=
  if length > buffer.length then .error ⟨buffer, length⟩
  else .ok (crcRegs cfg (buffer.take length)).value

/-! ### CSUM -/

/-- The 8-bit accumulator over the window, the `CSUM_END` = 299 bytes at offsets 0 to 298 (R8), from 0 (R30, R110,
R113). -/
def windowSum (buffer : Buffer) : Byte := (buffer.take 299).foldl (· + ·) 0

/-- `CSUM(buffer)` (R110): `OutOfRange` on fewer than `CSUM_MIN_BUF` = 300 bytes, although 299 are summed (R111). -/
def csum (buffer : Buffer) : Except OutOfRange Byte :=
  if buffer.length < 300 then .error ⟨buffer, buffer.length⟩ else .ok (windowSum buffer)

/-! ### The direct operations -/

/-- What a direct `CRC16` returns to its caller. -/
def crcResult : Except OutOfRange Word16 → OpResult
  | .ok v => .crc v
  | .error e => .outOfRange e

/-- What a direct `CSUM` returns to its caller. -/
def csumResult : Except OutOfRange Byte → OpResult
  | .ok v => .checksum v
  | .error e => .outOfRange e

/-- `CRC16` (R100, R103): the value or `OutOfRange`; no persistent state, no event. -/
def execCrc16 (buffer : Buffer) (length : Nat) (s : State) : Outcome :=
  .next (s.answer (crcResult (crc16 s.cfg buffer length)))

/-- `CSUM` (R110, R111): the byte or `OutOfRange`; no persistent state, no event. -/
def execCsum (buffer : Buffer) (s : State) : Outcome :=
  .next (s.answer (csumResult (csum buffer)))

end Sys2Proof.Machine
end

