-- ==== Sys2Proof/Machine/Classifier.lean ====
section
/-! DEFINITION. The byte-pattern Modbus classifier (`spec/42_modbus_classifier.md`): stateless (R160), one event for each
exchange, a CRC mismatch being the event's `crcOk = false` (R167). -/

namespace Sys2Proof.Machine

/-- The CRC of a window inside a chunk (R100); none where the window passes the chunk, which no rule here reaches. -/
def windowCrc (cfg : Config) (chunk : Buffer) (length : Nat) : Option Word16 := (crc16 cfg chunk length).toOption

/-- The exchange a request reports (R162): for `9 + wbc <= 11` the window, the data and the field that the layout gives,
beyond that all three absent and the check failed, nothing computed (R163). DESIGN CHOICE of the spec, safe: log 10. -/
def requestExchange (cfg : Config) (unit : Byte) (addr qty : Word16) (wbc d0 d1 d2 d3 : Byte) : Exchange :=
  let chunk := mbReqWire unit addr qty wbc d0 d1 d2 d3
  if reqInReach wbc then
    let computed := windowCrc cfg chunk (reqWindow wbc)
    let field := reqCrcField chunk wbc
    { kind := .request, raw := chunk, unit := unit, addr := addr, qty := qty, wbc := some wbc,
      data := reqData chunk wbc, crcField := field, crcCalc := computed, crcOk := crcOk computed field,
      category := categoryOf addr }
  else
    { kind := .request, raw := chunk, unit := unit, addr := addr, qty := qty, wbc := some wbc,
      data := none, crcField := none, crcCalc := none, crcOk := false, category := categoryOf addr }

/-- The exchange a response reports (R166): the CRC over the first six bytes against the field in the last two. -/
def responseExchange (cfg : Config) (unit : Byte) (addr qty crc : Word16) : Exchange :=
  let chunk := mbRspWire unit addr qty crc
  let computed := windowCrc cfg chunk rspWindow
  let field := be16At chunk rspWindow
  { kind := .response, raw := chunk, unit := unit, addr := addr, qty := qty, wbc := none, data := none,
    crcField := field, crcCalc := computed, crcOk := crcOk computed field, category := categoryOf addr }

/-- `MB_WRITE_REQ` (R162, R163): one event, no register written (R160). -/
def execMbWriteReq (unit : Byte) (addr qty : Word16) (wbc d0 d1 d2 d3 : Byte) (s : State) : Outcome :=
  s.deliver .mbWriteReq (mbReqWire unit addr qty wbc d0 d1 d2 d3)
    (.next ((s.emit (.modbusExchange (requestExchange s.cfg unit addr qty wbc d0 d1 d2 d3))).answer .nothing))

/-- `MB_WRITE_RSP` (R166): one event, no register written (R160). -/
def execMbWriteRsp (unit : Byte) (addr qty crc : Word16) (s : State) : Outcome :=
  s.deliver .mbWriteRsp (mbRspWire unit addr qty crc)
    (.next ((s.emit (.modbusExchange (responseExchange s.cfg unit addr qty crc))).answer .nothing))

end Sys2Proof.Machine
end

