-- ==== Sys2Proof/Machine/Validator.lean ====
section
/-! DEFINITION. The frame validator (`spec/43_frame_validator.md`): the four checks in the source's order, the first failure
ending the operation, and exactly one event. -/

namespace Sys2Proof.Machine

/-- Steps 3 and 4 (R193, R194), of a frame whose length and checksum are right: `typeByte` is `frame[4]`, `sourceByte` is
`frame[5]`. -/
def typeAndSource (frame : Buffer) (typeByte sourceByte : Byte) (ctx : DevId) : Event :=
  match recordTypeOf typeByte with
  | none => .frameRejected (.unknownRecordType typeByte) frame
  | some rtype => .frameValid frame rtype (sourceOf sourceByte ctx).1 (sourceOf sourceByte ctx).2

/-- The one event of `VALIDATE` (R190): length (R191), checksum (R192), record type (R193), source (R194), in this order
(R196); `FRAME_MIN_LEN` = 300, `CSUM_OFFSET` = 299, `TYPE_OFFSET` = 4, `SOURCE_OFFSET` = 5 (R8). The reads at 299, 4 and 5 lie inside a frame of at least 300 bytes. -/
def validation (frame : Buffer) (ctx : DevId) : Event :=
  if short : frame.length < 300 then .frameRejected .frameTooShort frame
  else
    let found := frame[299]'(by omega)
    let expected := windowSum frame
    if csumOk found expected = false then .frameRejected (.checksumMismatch expected found) frame
    else typeAndSource frame (frame[4]'(by omega)) (frame[5]'(by omega)) ctx

/-- `VALIDATE` as the reassembler runs it on an emitted frame (R135): emit the outcome, touch nothing else. -/
def State.validate (frame : Buffer) (ctx : DevId) (s : State) : State := s.emit (validation frame ctx)

/-- `VALIDATE` called directly on any buffer (R190). -/
def execValidate (frame : Buffer) (ctx : DevId) (s : State) : Outcome :=
  s.takeContext ctx (.next ((s.validate frame ctx).answer .nothing))

end Sys2Proof.Machine
end

