-- ==== Sys2Proof/Machine/Reassembler.lean ====
section
/-! DEFINITION. The frame reassembler (`spec/41_frame_reassembler.md`): one meaning for each chunk class it handles, and the
procedures they share. -/

namespace Sys2Proof.Machine

/-- `complete(ctx)`, the transient `Complete` state (R135): clear the registers, emit the frame, validate it. -/
def State.complete (ctx : DevId) (s : State) : State :=
  (s.clearAssembly.emit (.frameEmitted s.acc)).validate s.acc ctx

/-- The body of `FRAME_START` (R131), which `FRAME_RESTART` runs too (R133): take the context, store the chunk, load `rem`,
then complete at once or start assembling. -/
def State.startFrame (n : Nibble) (chunk : Buffer) (ctx : DevId) (s : State) : Outcome :=
  s.takeContext ctx
    (match s.store chunk with
     | none => .refused .accCapacityExceeded
     | some stored =>
       let loaded : State := { stored with rem := loadCount s.cfg n }
       if n = 0 then .next ((loaded.complete ctx).answer .nothing)
       else .next ({ loaded with fsm := .assembling }.answer .nothing))

/-- `EMPTY` (R136): no register changes, no event, not counted as a fragment. -/
def execEmpty (s : State) : Outcome := s.deliver .empty [] (.next (s.answer .nothing))

/-- `FRAME_START` (R131). -/
def execFrameStart (n : Nibble) (rest : Buffer) (ctx : DevId) (s : State) : Outcome :=
  s.deliver .frameStart (frameWire n rest) (s.startFrame n (frameWire n rest) ctx)

/-- `FRAME_RESTART` (R133): report the abandoned assembly with every byte of it, clear, then `FRAME_START` from `Idle`. -/
def execFrameRestart (n : Nibble) (rest : Buffer) (ctx : DevId) (s : State) : Outcome :=
  s.deliver .frameRestart (frameWire n rest)
    (((s.emit (.assemblyAbandoned s.acc)).clearAssembly).startFrame n (frameWire n rest) ctx)

/-- `FRAGMENT` (R134): take the context, append, count down by one, complete when `rem` reaches 0. -/
def execFragment (bytes : Buffer) (ctx : DevId) (s : State) : Outcome :=
  s.deliver .fragment bytes (s.takeContext ctx
    (match s.append bytes with
     | none => .refused .accCapacityExceeded
     | some appended =>
       let counted : State := { appended with rem := countDown appended.cfg appended.rem }
       if counted.rem = 0 then .next ((counted.complete ctx).answer .nothing) else .next (counted.answer .nothing)))

/-- `UNRECOGNIZED` (R137): report the chunk and drop it. -/
def execUnrecognized (raw : Buffer) (s : State) : Outcome :=
  s.deliver .unrecognized raw (.next ((s.emit (.unrecognized raw)).answer .nothing))

end Sys2Proof.Machine
end

