-- ==== Sys2Proof/Machine/System.lean ====
section
/-! DEFINITION. The top-level and system operations (`spec/44_system_ops.md`): `CHUNK`, `RESET`, `STATUS`. -/

namespace Sys2Proof.Machine

/-- `CHUNK` (R214): classify the chunk in the current state (R78) and run exactly one class. -/
def execChunk (bytes : Buffer) (ctx : DevId) (s : State) : Outcome :=
  match decodeChunk s.cfg.magic3Mask s.fsm bytes ctx with
  | .empty => execEmpty s
  | .frameStart n rest c => execFrameStart n rest c s
  | .frameRestart n rest c => execFrameRestart n rest c s
  | .fragment b c => execFragment b c s
  | .mbWriteReq unit addr qty wbc d0 d1 d2 d3 => execMbWriteReq unit addr qty wbc d0 d1 d2 d3 s
  | .mbWriteRsp unit addr qty crc => execMbWriteRsp unit addr qty crc s
  | .unrecognized raw => execUnrecognized raw s

/-- `RESET` (R210, R260, R261): `Idle`, 0, empty, silently; events already emitted stay emitted. -/
def execReset (s : State) : Outcome := .next (s.clearAssembly.answer .nothing)

/-- `STATUS` (R33, R212): return `(fsm, rem, len(acc))`, change nothing. -/
def execStatus (s : State) : Outcome := .next (s.answer (.status s.fsm.bit s.rem s.acc.length))

end Sys2Proof.Machine
end

