-- ==== Sys2Proof/Machine/Dispatch.lean ====
section
/-! DEFINITION. The meaning of each instruction: one arm for each constructor of `Instr`. -/

namespace Sys2Proof.Machine

def exec (i : Instr) (s : State) : Host.Outcome State Fault Refusal :=
  match i with
  | .empty => Sys2Proof.Machine.execEmpty s
  | .frameStart n rest ctx => Sys2Proof.Machine.execFrameStart n rest ctx s
  | .frameRestart n rest ctx => Sys2Proof.Machine.execFrameRestart n rest ctx s
  | .fragment bytes ctx => Sys2Proof.Machine.execFragment bytes ctx s
  | .mbWriteReq unit addr qty wbc d0 d1 d2 d3 => Sys2Proof.Machine.execMbWriteReq unit addr qty wbc d0 d1 d2 d3 s
  | .mbWriteRsp unit addr qty crc => Sys2Proof.Machine.execMbWriteRsp unit addr qty crc s
  | .unrecognized raw => Sys2Proof.Machine.execUnrecognized raw s
  | .chunk bytes ctx => Sys2Proof.Machine.execChunk bytes ctx s
  | .crc16 buffer length => Sys2Proof.Machine.execCrc16 buffer length s
  | .csum buffer => Sys2Proof.Machine.execCsum buffer s
  | .validate frame ctx => Sys2Proof.Machine.execValidate frame ctx s
  | .reset => Sys2Proof.Machine.execReset s
  | .status => Sys2Proof.Machine.execStatus s

end Sys2Proof.Machine
end

