-- ==== Sys2Proof/Machine/Step.lean ====
section
/-! DEFINITION. One step: take the oldest presented operation, decode it in the current state, run it (`spec/20_memory.md`
R60). With nothing presented the machine is quiescent and stays as it is (`spec/41_frame_reassembler.md` R141; log 2). -/

namespace Sys2Proof.Machine

def step (s : State) : Host.Outcome State Fault Refusal :=
  match s.fetch with
  | none => .next s
  | some (op, t) => exec (decode t.cfg.magic3Mask t.fsm op) t

/-- The table word's chunk put in front of the queue, so that the next step runs it. DESIGN CHOICE, safe: log 13. -/
def State.withFetchWord (s : State) (nbits w : Nat) : State :=
  { s with input := .chunk (tableChunk nbits w) 0 :: s.input }

end Sys2Proof.Machine
end

