-- ==== Sys2Proof/Machine/Trace.lean ====
section
/-! DEFINITION. The trace notation and the pseudo-operations (`spec/30_encoding.md` R87, R88): how a written program becomes
the operations presented at the boundary. The notation carries no semantics of its own (D18); what it leaves to a reader is
log 16. -/

namespace Sys2Proof.Machine

/-! ### Pseudo-operations (R88) -/

/-- The pieces of a `SEND`: the first `k1` bytes, the next `k2`, and so on; none unless the sizes add up to the bytes. -/
def splitBytes (bytes : Buffer) : List Nat → Option (List Buffer)
  | [] => if bytes = [] then some [] else none
  | k :: ks =>
    if k ≤ bytes.length then (splitBytes (bytes.drop k) ks).map (bytes.take k :: ·) else none

/-- `SEND <bytes> SPLIT k1,...,km`: consecutive `CHUNK` operations carrying the pieces. -/
def sendOps (bytes : Buffer) (sizes : List Nat) (ctx : DevId) : Option (List Operation) :=
  (splitBytes bytes sizes).map fun pieces => pieces.map (Operation.chunk · ctx)

/-- The CRC bytes of a window in the order they stand in a chunk: `crc_hi`, then `crc_lo` (R88). -/
def crcBytes (cfg : Config) (window : Buffer) : Buffer := [(crcRegs cfg window).hi, (crcRegs cfg window).lo]

/-- The chunk of `MBREQ unit addr qty d0 d1`: a request with two data bytes and the CRC of the nine bytes before it. -/
def mbReqChunk (cfg : Config) (unit : Byte) (addr qty : Word16) (d0 d1 : Byte) : Buffer :=
  let window := [unit, mbFunctionCode, highByte addr, lowByte addr, highByte qty, lowByte qty, 0x02, d0, d1]
  window ++ crcBytes cfg window

/-- The chunk of `MBRSP unit addr qty`: a response with the CRC of the six bytes before it. -/
def mbRspChunk (cfg : Config) (unit : Byte) (addr qty : Word16) : Buffer :=
  let window := [unit, mbFunctionCode, highByte addr, lowByte addr, highByte qty, lowByte qty]
  window ++ crcBytes cfg window

/-! ### Lines of text (R87) -/

/-- The value of a hexadecimal digit. -/
def hexDigit (c : Char) : Option Nat :=
  if '0' ≤ c ∧ c ≤ '9' then some (c.toNat - '0'.toNat)
  else if 'A' ≤ c ∧ c ≤ 'F' then some (c.toNat - 'A'.toNat + 10)
  else none

/-- A number of hexadecimal digits, first digit most significant. -/
def hexNumber (cs : List Char) : Option Nat :=
  cs.foldl (fun acc c => acc.bind fun a => (hexDigit c).map (16 * a + ·)) (some 0)

/-- A decimal number of at least one digit. -/
def decNumber (cs : List Char) : Option Nat :=
  if cs = [] then none
  else cs.foldl (fun acc c => acc.bind fun a => if c.isDigit then some (10 * a + (c.toNat - '0'.toNat)) else none) (some 0)

/-- A two-digit hexadecimal byte. -/
def byteWord (cs : List Char) : Option Byte := if cs.length = 2 then (hexNumber cs).map (BitVec.ofNat 8) else none

/-- A four-digit hexadecimal 16-bit value (`MBREQ`, `MBRSP`). -/
def word16Word (cs : List Char) : Option Word16 := if cs.length = 4 then (hexNumber cs).map (BitVec.ofNat 16) else none

/-- One item of `<bytes>`: `XX`, or `XX*k` for `k` copies. -/
def bytesWord (cs : List Char) : Option Buffer :=
  match cs with
  | h :: l :: '*' :: k => (byteWord [h, l]).bind fun b => (decNumber k).map fun n => List.replicate n b
  | _ => (byteWord cs).map fun b => [b]

/-- `<bytes>`: items one after another. -/
def bytesWords (ws : List (List Char)) : Option Buffer := (ws.mapM bytesWord).map List.flatten

/-- The number of an option word such as `ctx=5`, if the word has that name. -/
def optionWord (name : String) (w : List Char) : Option Nat :=
  if w.take name.length = name.toList then decNumber (w.drop name.length) else none

/-- Split the words of a line into its bytes and the value of a last option word, or the default where there is none. -/
def withOption (name : String) (ws : List (List Char)) : Option (Buffer × Option Nat) :=
  match ws.getLast?.bind (optionWord name) with
  | some n => (bytesWords ws.dropLast).map fun b => (b, some n)
  | none => (bytesWords ws).map fun b => (b, none)

/-- A device identifier within `DEVID_WIDTH`, default 0 (R87). -/
def ctxOf (cfg : Config) : Option Nat → Option DevId
  | none => some 0
  | some n => if fitsDevId cfg.devIdWidth n then some n else none

/-- The words of a line, its comment dropped. -/
def lineWords (line : List Char) : List (List Char) :=
  ((line.takeWhile (fun c => c != ';')).splitOn ' ').filter fun w => !w.isEmpty

/-- The sizes of a `SEND`, separated by commas. -/
def sizesWord (cs : List Char) : Option (List Nat) := (cs.splitOn ',').mapM decNumber

/-- The operations of one line (R87, R88); none for a line the notation does not have. -/
def parseLine (cfg : Config) (line : List Char) : Option (List Operation) :=
  match lineWords line with
  | [] => some []
  | head :: args =>
    if head = "RESET".toList then (if args = [] then some [.reset] else none)
    else if head = "STATUS".toList then (if args = [] then some [.status] else none)
    else if head = "CHUNK".toList then
      (withOption "ctx=" args).bind fun p => (ctxOf cfg p.2).map fun c => [.chunk p.1 c]
    else if head = "CRC16".toList then
      (withOption "len=" args).map fun p => [.crc16 p.1 (p.2.getD p.1.length)]
    else if head = "CSUM".toList then (bytesWords args).map fun b => [.csum b]
    else if head = "VALIDATE".toList then
      (withOption "ctx=" args).bind fun p => (ctxOf cfg p.2).map fun c => [.validate p.1 c]
    else if head = "SEND".toList then
      match args.splitOn "SPLIT".toList with
      | [bytes, [sizes]] => (bytesWords bytes).bind fun b => (sizesWord sizes).bind fun ks => sendOps b ks 0
      | _ => none
    else if head = "MBREQ".toList then
      match args with
      | [u, a, q, d0, d1] =>
        (byteWord u).bind fun u => (word16Word a).bind fun a => (word16Word q).bind fun q =>
          (byteWord d0).bind fun d0 => (byteWord d1).map fun d1 => [.chunk (mbReqChunk cfg u a q d0 d1) 0]
      | _ => none
    else if head = "MBRSP".toList then
      match args with
      | [u, a, q] =>
        (byteWord u).bind fun u => (word16Word a).bind fun a =>
          (word16Word q).map fun q => [.chunk (mbRspChunk cfg u a q) 0]
      | _ => none
    else none

/-- The operations of a program, one line each (R87). -/
def parseProgram (cfg : Config) (text : String) : Option (List Operation) :=
  ((text.toList.splitOn '\n').mapM (parseLine cfg)).map List.flatten

end Sys2Proof.Machine
end

