-- ==== Sys2Proof/WellFormed.lean ====
section
/-! DEFINITION. Which instructions are well formed: the operand conditions of `spec/30_encoding.md` R71 to R78, the
width of a context (R34), and the state a class instruction belongs to. -/

namespace Sys2Proof

/-- Does the chunk carry one of the two Modbus patterns (R78 lines 5 and 6)? -/
def isModbus (chunk : Buffer) : Bool :=
  (chunk.length == 11 || chunk.length == 8) && readByte chunk 1 == some mbFunctionCode

/-- Does the `ctx_device_id` an operation is presented with, if it has one, fit in `DEVID_WIDTH` bits (R34)? -/
def Operation.contextFits (width : Nat) : Operation → Bool
  | .chunk _ ctx => fitsDevId width ctx
  | .crc16 _ _ => true
  | .csum _ => true
  | .validate _ ctx => fitsDevId width ctx
  | .reset => true
  | .status => true

/-- The operand conditions of each instruction: a start chunk's count is one the mask admits (R74, R77), a fragment is
neither empty nor magic (R134), an unrecognised chunk matches no pattern (R84), no chunk is longer than
`MAX_CHUNK_LEN` (R146, R214), and a context fits in `DEVID_WIDTH` bits (R34, R214). A direct operation takes any buffer
(R100, R110, R190). -/
def Instr.wf (cfg : Config) : Instr → Bool
  | .empty => true
  | .frameStart n rest ctx =>
    admitsCount cfg.magic3Mask n && withinBound cfg.maxChunkLen (frameWire n rest).length && fitsDevId cfg.devIdWidth ctx
  | .frameRestart n rest ctx =>
    admitsCount cfg.magic3Mask n && withinBound cfg.maxChunkLen (frameWire n rest).length && fitsDevId cfg.devIdWidth ctx
  | .fragment bytes ctx =>
    !bytes.isEmpty && !isMagic cfg.magic3Mask bytes && withinBound cfg.maxChunkLen bytes.length &&
      fitsDevId cfg.devIdWidth ctx
  | .mbWriteReq _ _ _ _ _ _ _ _ => withinBound cfg.maxChunkLen 11
  | .mbWriteRsp _ _ _ _ => withinBound cfg.maxChunkLen 8
  | .unrecognized raw =>
    !raw.isEmpty && !isMagic cfg.magic3Mask raw && !isModbus raw && withinBound cfg.maxChunkLen raw.length
  | .chunk bytes ctx => withinBound cfg.maxChunkLen bytes.length && fitsDevId cfg.devIdWidth ctx
  | .crc16 _ _ => true
  | .csum _ => true
  | .validate _ ctx => fitsDevId cfg.devIdWidth ctx
  | .reset => true
  | .status => true

/-- The state an instruction belongs to (R78, the column `fsm` of the opcode table); `none` is any state. -/
def Instr.fsmRule : Instr → Option Fsm
  | .empty => none
  | .frameStart _ _ _ => some .idle
  | .frameRestart _ _ _ => some .assembling
  | .fragment _ _ => some .assembling
  | .mbWriteReq _ _ _ _ _ _ _ _ => some .idle
  | .mbWriteRsp _ _ _ _ => some .idle
  | .unrecognized _ => some .idle
  | .chunk _ _ => none
  | .crc16 _ _ => none
  | .csum _ => none
  | .validate _ _ => none
  | .reset => none
  | .status => none

/-- May the instruction run in this state? -/
def Instr.fitsState (fsm : Fsm) (i : Instr) : Bool := i.fsmRule.all fun f => f == fsm

/-- The chunk class an instruction stands for; a direct operation has none (R86). -/
def Instr.cls : Instr → Option ChunkClass
  | .empty => some .empty
  | .frameStart _ _ _ => some .frameStart
  | .frameRestart _ _ _ => some .frameRestart
  | .fragment _ _ => some .fragment
  | .mbWriteReq _ _ _ _ _ _ _ _ => some .mbWriteReq
  | .mbWriteRsp _ _ _ _ => some .mbWriteRsp
  | .unrecognized _ => some .unrecognized
  | .chunk _ _ => none
  | .crc16 _ _ => none
  | .csum _ => none
  | .validate _ _ => none
  | .reset => none
  | .status => none

/-- The bytes on the link of a class instruction; a direct operation has none (R86). -/
def Instr.wire : Instr → Option Buffer
  | .empty => some []
  | .frameStart n rest _ => some (frameWire n rest)
  | .frameRestart n rest _ => some (frameWire n rest)
  | .fragment bytes _ => some bytes
  | .mbWriteReq unit addr qty wbc d0 d1 d2 d3 => some (mbReqWire unit addr qty wbc d0 d1 d2 d3)
  | .mbWriteRsp unit addr qty crc => some (mbRspWire unit addr qty crc)
  | .unrecognized raw => some raw
  | .chunk _ _ => none
  | .crc16 _ _ => none
  | .csum _ => none
  | .validate _ _ => none
  | .reset => none
  | .status => none

end Sys2Proof
end

