-- ==== Sys2Proof/Safety.lean ====
section
/-! DEFINITION. What counts as a safe state and a safe run: the invariants of `spec/10_state.md` R24 and R26, the builds in
which nothing is refused (`spec/00_scope.md` R15), and the parts of the output that statements speak of. -/

namespace Sys2Proof.Machine

/-- I-a of R24: in `Idle` nothing is accumulated and nothing is awaited. -/
abbrev State.IdleClean (s : State) : Prop := s.fsm = .idle → s.acc = [] ∧ s.rem = 0

/-- I-b of R24: in `Assembling`, `1 <= rem`, `acc` begins with the magic under the mask (so it has at least four bytes), and
`rem` is at most the count in `acc[3]`. -/
abbrev State.AssemblyStarted (s : State) : Prop :=
  s.fsm = .assembling →
    1 ≤ s.rem ∧ 4 ≤ s.acc.length ∧ isMagic s.cfg.magic3Mask s.acc = true ∧
      (fragmentCount s.acc).any (fun n => decide (s.rem ≤ n.toNat)) = true

/-- I-c of R24: `0 <= rem <= 15`. -/
abbrev State.CountInRange (s : State) : Prop := s.rem ≤ 15

/-- The invariants of the persistent state (R24). -/
abbrev State.Inv (s : State) : Prop := s.IdleClean ∧ s.AssemblyStarted ∧ s.CountInRange

/-- `rem` is a number its register of `REM_WIDTH` bits can hold (R21). -/
abbrev State.CountFits (s : State) : Prop := s.rem < 2 ^ s.cfg.remWidth.val

/-- Chunks an assembly holds at most, by its own count: `N + 1` (R74), less those still awaited. -/
def State.chunksHeld (s : State) : Nat := ((fragmentCount s.acc).elim 0 BitVec.toNat) + 1 - s.rem

/-- R26 while assembling: with a finite `MAX_CHUNK_LEN`, `acc` is no longer than the chunks it holds. -/
abbrev State.LengthBounded (s : State) : Prop :=
  s.fsm = .assembling → s.cfg.maxChunkLen.all (fun m => decide (s.acc.length ≤ s.chunksHeld * m)) = true

/-- A build whose buffers are unbounded, as the source describes them (R9, R26). -/
abbrev Unbounded (cfg : Config) : Prop := cfg.accCapacity = none ∧ cfg.maxChunkLen = none

/-- Is the event a finished frame? -/
def Event.isFrameEmitted : Event → Bool
  | .frameEmitted _ => true
  | .frameValid _ _ _ _ => false
  | .frameRejected _ _ => false
  | .assemblyAbandoned _ => false
  | .modbusExchange _ => false
  | .unrecognized _ => false

/-- Is the event a validation outcome? -/
def Event.isOutcome : Event → Bool
  | .frameEmitted _ => false
  | .frameValid _ _ _ _ => true
  | .frameRejected _ _ => true
  | .assemblyAbandoned _ => false
  | .modbusExchange _ => false
  | .unrecognized _ => false

/-- An event with the identifier of a Slave frame put to 0: what an observer sees who cannot see `ctx_device_id`. -/
def Event.hideCtx : Event → Event
  | .frameEmitted f => .frameEmitted f
  | .frameValid f t .master d => .frameValid f t .master d
  | .frameValid f t .slave _ => .frameValid f t .slave 0
  | .frameRejected w f => .frameRejected w f
  | .assemblyAbandoned p => .assemblyAbandoned p
  | .modbusExchange x => .modbusExchange x
  | .unrecognized r => .unrecognized r

end Sys2Proof.Machine
end

