-- ==== Sys2Proof/Certificates/Slice0/Obligations.lean ====
section
/-! DEFINITION. The statements about the block. Each docstring names the rule of `spec/` it formalises. Statements are about
every state and every admissible build (tables, mask, capacities) unless a hypothesis says otherwise. Where `result` is
said, it is the model's own field for what an operation returns (log 3). -/

open Sys2Proof Sys2Proof.Machine

/-! ### Decode and encode -/

/-- Decoding the encoding of a well-formed instruction gives it back, in every state it belongs to (R71 to R78, R86). `CHUNK`
itself is left out: a presented chunk decodes to its class, which `DecodedBytesKept` and `ChunkRunsItsClass` cover. -/
def Obligations.DecodeOfEncode : Prop :=
  ∀ (cfg : Config) (fsm : Fsm) (i : Instr), i.wf cfg = true → i.fitsState fsm = true →
    (∀ bytes ctx, i ≠ .chunk bytes ctx) → decode cfg.magic3Mask fsm (encode i) = i

/-- No byte of a chunk is dropped by the decoder: the bytes of what it decodes to are the chunk (R70, R81). -/
def Obligations.DecodedBytesKept : Prop :=
  ∀ (mask : Magic3Mask) (fsm : Fsm) (bytes : Buffer) (ctx : DevId),
    (decodeChunk mask fsm bytes ctx).wire = bytes ∧
    (decodeChunk mask fsm bytes ctx).toInstr.wire = some bytes

/-- Whatever is presented within `MAX_CHUNK_LEN` and with a context of `DEVID_WIDTH` bits decodes to a well-formed instruction
that belongs to the state it was decoded in (R34, R78, R79). -/
def Obligations.DecodedIsWellFormed : Prop :=
  ∀ (cfg : Config) (fsm : Fsm) (op : Operation),
    (∀ bytes ctx, op = .chunk bytes ctx → withinBound cfg.maxChunkLen bytes.length = true) →
    op.contextFits cfg.devIdWidth = true →
    (decode cfg.magic3Mask fsm op).wf cfg = true ∧ (decode cfg.magic3Mask fsm op).fitsState fsm = true

/-- R78: the class of a decoded chunk is the first of the seven lines that applies. Lines 1 and 4 are the spec's decisions D9
and D10 (log 20). -/
def Obligations.DecoderFollowsSevenLines : Prop :=
  ∀ (mask : Magic3Mask) (fsm : Fsm) (chunk : Buffer) (ctx : DevId),
    (decodeChunk mask fsm chunk ctx).cls = classify mask fsm chunk ∧
    classify mask fsm chunk =
      if chunk.length = 0 then .empty
      else if isMagic mask chunk = true ∧ fsm = .idle then .frameStart
      else if isMagic mask chunk = true ∧ fsm = .assembling then .frameRestart
      else if fsm = .assembling then .fragment
      else if chunk.length = 11 ∧ readByte chunk 1 = some 0x10 then .mbWriteReq
      else if chunk.length = 8 ∧ readByte chunk 1 = some 0x10 then .mbWriteRsp
      else .unrecognized

/-- R88: the opcode table read row by row, its rows standing in rising order of their priority number, gives every chunk in
every state the class that R78 gives it, under both masks. The table's form is the spec's decision D18 (log 20). -/
def Obligations.OpcodeTableAgreesWithDecoder : Prop :=
  (∀ mask : Magic3Mask, ((opcodeRows mask).map TableRow.priority).Pairwise (· < ·)) ∧
  ∀ (mask : Magic3Mask) (fsm : Fsm) (chunk : Buffer) (ctx : DevId),
    tableClass mask fsm chunk = some (decodeChunk mask fsm chunk ctx).cls

/-- R77: the magic compare, byte by byte; under `0xFF` it is the four bytes `55 AA EB 90`, under `0x0F` the upper nibble of
byte 3 is free and its lower nibble is 0. The two masks and the short chunk are the spec's decisions D3 and D8 (log 6, log
20). -/
def Obligations.MagicCompareBytes : Prop :=
  ∀ (mask : Magic3Mask) (chunk : Buffer),
    (isMagic mask chunk = true ↔
      4 ≤ chunk.length ∧ readByte chunk 0 = some 0x55 ∧ readByte chunk 1 = some 0xAA ∧ readByte chunk 2 = some 0xEB ∧
        ∃ b, readByte chunk 3 = some b ∧ b &&& maskByte mask = 0x90 &&& maskByte mask) ∧
    (mask = .exact → (isMagic mask chunk = true ↔ ∃ rest, chunk = 0x55 :: 0xAA :: 0xEB :: 0x90 :: rest)) ∧
    (mask = .upperFree →
      (isMagic mask chunk = true ↔ ∃ b rest, chunk = 0x55 :: 0xAA :: 0xEB :: b :: rest ∧ b.toNat % 16 = 0))

/-- R74: the count is byte 3 divided by 16; under `0xFF` a start chunk always has 9, under `0x0F` each of the sixteen counts
is that of a start chunk. The two masks are the spec's decision D3 (log 6). -/
def Obligations.FragmentCountField : Prop :=
  (∀ (chunk : Buffer) (b : Byte), readByte chunk 3 = some b →
    ∃ n, fragmentCount chunk = some n ∧ n.toNat = b.toNat / 16) ∧
  (∀ chunk : Buffer, isMagic .exact chunk = true → fragmentCount chunk = some 9) ∧
  (∀ (n : Nibble) (rest : Buffer), isMagic .upperFree (frameWire n rest) = true ∧
    fragmentCount (frameWire n rest) = some n)

/-- Chunks written out byte by byte decode to the instructions they stand for: a sanity check. The start and the restart are
written from the format R71 and its field R74; the other five are the chunks of T-CLS-4, 5, 12, 11 and 14, their classes as
listed there and their fields by R72, R73 and R75. The masks are the spec's decision D3 (log 6); that the quantity reads
`0x0001` and the CRC field `0x6587` rests on its decisions D6 and D5 (log 9). -/
def Obligations.WrittenChunksDecode : Prop :=
  decode .exact .idle (.chunk [0x55, 0xAA, 0xEB, 0x90, 0x02, 0x00] 5) = .frameStart 9 [0x02, 0x00] 5 ∧
  decode .exact .assembling (.chunk [0x55, 0xAA, 0xEB, 0x90] 5) = .frameRestart 9 [] 5 ∧
  decode .exact .idle (.chunk [0x55, 0xAA, 0xEB, 0x20, 0x02, 0x00] 5) =
    .unrecognized [0x55, 0xAA, 0xEB, 0x20, 0x02, 0x00] ∧
  decode .upperFree .idle (.chunk [0x55, 0xAA, 0xEB, 0x20, 0x02, 0x00] 5) = .frameStart 2 [0x02, 0x00] 5 ∧
  decode .exact .idle (.chunk [0x01, 0x10, 0x16, 0x1E, 0x00, 0x01, 0x65, 0x87] 0) =
    .mbWriteRsp 0x01 0x161E 0x0001 0x6587 ∧
  decode .exact .idle (.chunk [0x01, 0x10, 0x16, 0x1E, 0x00, 0x01, 0x02, 0x00, 0x00, 0xD2, 0x2F] 0) =
    .mbWriteReq 0x01 0x161E 0x0001 0x02 0x00 0x00 0xD2 0x2F ∧
  decode .exact .idle (.chunk [0x01, 0x03, 0x00, 0x00, 0x00, 0x01, 0x84, 0x0A] 0) =
    .unrecognized [0x01, 0x03, 0x00, 0x00, 0x00, 0x01, 0x84, 0x0A]

/-! ### The step and the machine as a whole -/

/-- A step takes the oldest presented operation, decodes it in the current state and runs it (R60, R214). -/
def Obligations.StepRunsDecodedOperation : Prop :=
  ∀ (s : State) (op : Operation) (waiting : List Operation), s.input = op :: waiting →
    step s = exec (decode s.cfg.magic3Mask s.fsm op) { s with input := waiting }

/-- R141: with nothing presented the machine stays exactly as it is, in `Assembling` as in `Idle`. That the step then answers
the same state is the model's reading (log 2). -/
def Obligations.NothingPresentedNothingChanges : Prop :=
  ∀ s : State, s.input = [] → step s = .next s

/-- R37 and R260: after reset `Idle`, 0, empty, no event, in every build; the queue and the result are the model's own (log
1, log 3). The reset state is the spec's decision D20 (log 20). -/
def Obligations.ResetLeavesIdleEmpty : Prop :=
  ∀ cfg : Config, (State.resetWith cfg).fsm = .idle ∧ (State.resetWith cfg).rem = 0 ∧ (State.resetWith cfg).acc = [] ∧
    (State.resetWith cfg).events = [] ∧ (State.resetWith cfg).cfg = cfg ∧ State.reset = State.resetWith defaultConfig

/-- R24 holds after reset, in every build. -/
def Obligations.ResetSatisfiesInvariant : Prop := ∀ cfg : Config, (State.resetWith cfg).Inv

/-- R24: the invariants of the persistent state are kept by every step, from every state that has them. -/
def Obligations.StepKeepsInvariant : Prop :=
  ∀ s t : State, s.Inv → step s = .next t → t.Inv

/-- R24, last sentence: under the default mask an assembly begins with `55 AA EB 90` and awaits 1 to 9 chunks. -/
def Obligations.ExactMaskSharpensInvariant : Prop :=
  ∀ s : State, s.Inv → s.cfg.magic3Mask = .exact → s.fsm = .assembling →
    s.acc.take 4 = [0x55, 0xAA, 0xEB, 0x90] ∧ 1 ≤ s.rem ∧ s.rem ≤ 9

/-- R26: with a finite `MAX_CHUNK_LEN` an assembly is no longer than the chunks it holds, kept by every step; hence
`len(acc) <= 16 * MAX_CHUNK_LEN`. -/
def Obligations.AssemblyLengthBounded : Prop :=
  (∀ s t : State, s.Inv → s.LengthBounded → step s = .next t → t.LengthBounded) ∧
  (∀ (s : State) (m : Nat), s.Inv → s.LengthBounded → s.cfg.maxChunkLen = some m → s.acc.length ≤ 16 * m)

/-- R21, R146: `acc` never passes a finite `ACC_CAPACITY` (the refusal is the spec's decision D12: log 7), and `rem` stays a
number of `REM_WIDTH` bits, whatever that width (the spec's decision D11: log 8). -/
def Obligations.StepKeepsCapacity : Prop :=
  (∀ s t : State, withinBound s.cfg.accCapacity s.acc.length = true → step s = .next t →
    withinBound t.cfg.accCapacity t.acc.length = true) ∧
  (∀ s t : State, s.CountFits → step s = .next t → t.CountFits)

/-- R15, R228: in a build with unbounded buffers every step of every state completes: no operation stops the machine, whose
context, if it has one, is a number of `DEVID_WIDTH` bits (R34; log 8). -/
def Obligations.UnboundedBuildNeverStops : Prop :=
  ∀ s : State, Unbounded s.cfg → s.input.head?.all (Operation.contextFits s.cfg.devIdWidth) = true →
    ∃ t, step s = .next t

/-- R146: an operation is refused exactly where a finite capacity would be exceeded or where it takes on a context that does
not fit `DEVID_WIDTH` (R34), and nothing else stops a step. The refusal over a capacity is the spec's decision D12; that a
start is measured as a clear and an append is the model's reading (log 7), and so is the refusal of a context (log 8). -/
def Obligations.RefusedExactlyOverCapacity : Prop :=
  (∀ (s : State) (bytes : Buffer) (ctx : DevId) (waiting : List Operation), s.input = .chunk bytes ctx :: waiting →
    let stored := match s.classOf bytes with
      | .frameStart => some bytes.length
      | .frameRestart => some bytes.length
      | .fragment => some (s.acc.length + bytes.length)
      | .empty => none
      | .mbWriteReq => none
      | .mbWriteRsp => none
      | .unrecognized => none
    (step s = .refused .chunkTooLong ↔ ∃ m, s.cfg.maxChunkLen = some m ∧ m < bytes.length) ∧
    (step s = .refused .contextTooWide ↔
      (∀ m, s.cfg.maxChunkLen = some m → bytes.length ≤ m) ∧ stored.isSome = true ∧ 2 ^ s.cfg.devIdWidth ≤ ctx) ∧
    (step s = .refused .accCapacityExceeded ↔
      (∀ m, s.cfg.maxChunkLen = some m → bytes.length ≤ m) ∧ ctx < 2 ^ s.cfg.devIdWidth ∧
        ∃ m len, s.cfg.accCapacity = some m ∧ stored = some len ∧ m < len) ∧
    ((∃ t, step s = .next t) ∨ step s = .refused .chunkTooLong ∨ step s = .refused .contextTooWide ∨
      step s = .refused .accCapacityExceeded)) ∧
  (∀ (s : State) (frame : Buffer) (ctx : DevId) (waiting : List Operation), s.input = .validate frame ctx :: waiting →
    (step s = .refused .contextTooWide ↔ 2 ^ s.cfg.devIdWidth ≤ ctx) ∧
    ((∃ t, step s = .next t) ∨ step s = .refused .contextTooWide)) ∧
  (∀ s : State, (∀ bytes ctx waiting, s.input ≠ .chunk bytes ctx :: waiting) →
    (∀ frame ctx waiting, s.input ≠ .validate frame ctx :: waiting) → ∃ t, step s = .next t)

/-- R32, R59, R62: no step writes a table or any other parameter. -/
def Obligations.StepNeverWritesConfig : Prop :=
  ∀ s t : State, step s = .next t → t.cfg = s.cfg

/-- R54: the only writes of `acc` are the append of a delivered chunk and the clear (a start chunk is stored by a clear and an
append); no byte of it is changed in place, taken from its front or moved; and a frame emitted is the whole buffer with the
chunk appended to it, or the start chunk itself. -/
def Obligations.AccOnlyAppendedOrCleared : Prop :=
  ∀ s t : State, step s = .next t →
    (t.acc = s.acc ∨ t.acc = [] ∨
      ∃ bytes ctx waiting, s.input = .chunk bytes ctx :: waiting ∧
        (t.acc = s.acc ++ bytes ∨ (t.acc = bytes ∧ isMagic s.cfg.magic3Mask bytes = true))) ∧
    (∀ frame, .frameEmitted frame ∈ t.events.drop s.events.length →
      ∃ bytes ctx waiting, s.input = .chunk bytes ctx :: waiting ∧
        (frame = s.acc ++ bytes ∨ (frame = bytes ∧ isMagic s.cfg.magic3Mask bytes = true)))

/-- R60: a step consumes exactly the oldest presented operation and leaves the order of the others. -/
def Obligations.StepConsumesOldest : Prop :=
  ∀ s t : State, step s = .next t → t.input = s.input.tail

/-- R142, R214: a step only appends events, at most three, at most one of them a finished frame; a finished frame is followed
at once by exactly one validation outcome (R135), and is the second to last event. The order is the spec's decision D21 (log
20). -/
def Obligations.StepAppendsAtMostThreeEvents : Prop :=
  ∀ s t : State, step s = .next t →
    ∃ es, t.events = s.events ++ es ∧ es.length ≤ 3 ∧ es.countP Event.isFrameEmitted ≤ 1 ∧
      (es.countP Event.isFrameEmitted = 1 →
        ∃ before frame outcome, es = before ++ [.frameEmitted frame, outcome] ∧ outcome.isOutcome = true)

/-- R225: one operation reports at most one error kind, but for a restart whose new chunk is a whole frame, which may report
`AssemblyAbandoned` and then one more. The order is the spec's decision D21 (log 20). -/
def Obligations.AtMostOneErrorKind : Prop :=
  ∀ s t : State, step s = .next t →
    ∃ es, t.events = s.events ++ es ∧
      ((es.filterMap Event.errorKind).length ≤ 1 ∨
        ∃ k bytes ctx waiting, s.input = .chunk bytes ctx :: waiting ∧ s.classOf bytes = .frameRestart ∧
          fragmentCount bytes = some 0 ∧ es.filterMap Event.errorKind = [.assemblyAbandoned, k])

/-- R52, R223: no chunk, whatever its bytes, makes the block return `OutOfRange`, or any value. -/
def Obligations.ChunkNeverOutOfRange : Prop :=
  ∀ (s t : State) (bytes : Buffer) (ctx : DevId), exec (.chunk bytes ctx) s = .next t → t.result = .nothing

/-- R34: an identifier that a step reports with a valid frame is a number of `DEVID_WIDTH` bits, in every build. That the step
holds the context to this width is the model's reading (log 8), the width the spec's decision D22. -/
def Obligations.ReportedIdentifierFitsWidth : Prop :=
  ∀ s t : State, step s = .next t →
    ∃ es, t.events = s.events ++ es ∧
      ∀ frame rtype source d, .frameValid frame rtype source d ∈ es → d < 2 ^ s.cfg.devIdWidth

/-- R194, R214: `ctx_device_id` decides nothing but the identifier of a Slave frame that completes: two deliveries of one
chunk under different contexts leave the same registers and the same events but for that identifier. -/
def Obligations.ContextReachesOnlySlaveIdentifier : Prop :=
  ∀ (s t u : State) (bytes : Buffer) (c d : DevId),
    exec (.chunk bytes c) s = .next t → exec (.chunk bytes d) s = .next u →
    t.fsm = u.fsm ∧ t.rem = u.rem ∧ t.acc = u.acc ∧ t.cfg = u.cfg ∧ t.input = u.input ∧ t.result = u.result ∧
      t.events.map Event.hideCtx = u.events.map Event.hideCtx

/-- R141: an assembly is left only by a `RESET`, by the fragment that counts down to 0, or by a restart whose new frame is
complete at once. The count is one its register can hold, which every step keeps (`StepKeepsCapacity`). -/
def Obligations.OnlyExitsFromAssembling : Prop :=
  ∀ s t : State, s.fsm = .assembling → s.CountFits → step s = .next t → t.fsm = .idle →
    (∃ waiting, s.input = .reset :: waiting) ∨
    (∃ bytes ctx waiting, s.input = .chunk bytes ctx :: waiting ∧
      ((s.classOf bytes = .fragment ∧ s.rem = 1) ∨ (s.classOf bytes = .frameRestart ∧ fragmentCount bytes = some 0)))

/-- R79, R269: while assembling the classifier is not consulted: no chunk yields `ModbusExchange` or `Unrecognized`, and a
non-empty non-magic chunk, whatever it looks like, is appended. The spec's decision D10 (log 20). -/
def Obligations.ClassifierSilentWhileAssembling : Prop :=
  ∀ (s t : State) (bytes : Buffer) (ctx : DevId), s.fsm = .assembling → exec (.chunk bytes ctx) s = .next t →
    (∃ es, t.events = s.events ++ es ∧ ∀ e ∈ es, (∀ x, e ≠ .modbusExchange x) ∧ ∀ r, e ≠ .unrecognized r) ∧
    (bytes ≠ [] → isMagic s.cfg.magic3Mask bytes = false → 2 ≤ s.rem → s.CountFits →
      t.acc = s.acc ++ bytes ∧ t.rem = s.rem - 1 ∧ t.fsm = .assembling ∧ t.events = s.events)

/-- R140, R160: in `Idle` a chunk that is not a frame start touches no register of the reassembler. -/
def Obligations.IdleNonFrameTouchesNoRegister : Prop :=
  ∀ (s t : State) (bytes : Buffer) (ctx : DevId), s.fsm = .idle → isMagic s.cfg.magic3Mask bytes = false →
    exec (.chunk bytes ctx) s = .next t → t.fsm = s.fsm ∧ t.rem = s.rem ∧ t.acc = s.acc

/-- R139, S3: from `Idle`, a start chunk with `N >= 1` and then exactly `N` non-empty, non-magic chunks of any sizes yield
exactly one emitted frame, the concatenation of them all, validated with the context of the last chunk (R272), and leave the
reassembler in `Idle`. The order of the two events is the spec's decision D21 (log 20); that operations are presented through
a queue is the model's own (log 1). -/
def Obligations.AssemblyYieldsConcatenation : Prop :=
  ∀ (s : State) (n : Nibble) (rest : Buffer) (ctx : DevId) (middle : List (Buffer × DevId)) (last : Buffer)
    (lastCtx : DevId) (waiting : List Operation),
    s.fsm = .idle → Unbounded s.cfg → admitsCount s.cfg.magic3Mask n = true → middle.length + 1 = n.toNat →
    fitsDevId s.cfg.devIdWidth ctx = true →
    (∀ f ∈ middle ++ [(last, lastCtx)],
      f.1 ≠ [] ∧ isMagic s.cfg.magic3Mask f.1 = false ∧ fitsDevId s.cfg.devIdWidth f.2 = true) →
    s.input = .chunk (frameWire n rest) ctx ::
      ((middle ++ [(last, lastCtx)]).map (fun f => Operation.chunk f.1 f.2) ++ waiting) →
    let frame := frameWire n rest ++ (middle.map Prod.fst).flatten ++ last
    Host.Core.run Sys2Proof.core (n.toNat + 1) s =
      .next { fsm := .idle, rem := 0, acc := [], cfg := s.cfg, input := waiting,
              events := s.events ++ [.frameEmitted frame, validation frame lastCtx], result := .nothing }

/-- R138: the transition table, row by row, for a chunk in a build with unbounded buffers from a state that has the
invariants R24, and its last row, `RESET`, from any state. The row `EMPTY` is the spec's decision D9, the order of events its
decision D21, the bytes in the event of `UNRECOGNIZED` its decision D25 (log 20), and the row `RESET` its decision D20
(log 15). -/
def Obligations.TransitionTable : Prop :=
  (∀ (s : State) (bytes : Buffer) (ctx : DevId), s.Inv → Unbounded s.cfg →
    fitsDevId s.cfg.devIdWidth ctx = true →
    (s.classOf bytes = .empty → exec (.chunk bytes ctx) s = .next { s with result := .nothing }) ∧
    (∀ n, s.classOf bytes = .frameStart → fragmentCount bytes = some n → n ≠ 0 →
      exec (.chunk bytes ctx) s = .next { s with fsm := .assembling, rem := n.toNat, acc := bytes, result := .nothing }) ∧
    (s.classOf bytes = .frameStart → fragmentCount bytes = some 0 →
      exec (.chunk bytes ctx) s = .next { s with
        fsm := .idle, rem := 0, acc := [], result := .nothing,
        events := s.events ++ [.frameEmitted bytes, validation bytes ctx] }) ∧
    (s.classOf bytes = .mbWriteReq ∨ s.classOf bytes = .mbWriteRsp →
      ∃ x, exec (.chunk bytes ctx) s = .next { s with
        fsm := .idle, rem := 0, acc := [], result := .nothing, events := s.events ++ [.modbusExchange x] }) ∧
    (s.classOf bytes = .unrecognized →
      exec (.chunk bytes ctx) s = .next { s with
        fsm := .idle, rem := 0, acc := [], result := .nothing, events := s.events ++ [.unrecognized bytes] }) ∧
    (s.classOf bytes = .fragment → 2 ≤ s.rem →
      exec (.chunk bytes ctx) s = .next { s with rem := s.rem - 1, acc := s.acc ++ bytes, result := .nothing }) ∧
    (s.classOf bytes = .fragment → s.rem = 1 →
      exec (.chunk bytes ctx) s = .next { s with
        fsm := .idle, rem := 0, acc := [], result := .nothing,
        events := s.events ++ [.frameEmitted (s.acc ++ bytes), validation (s.acc ++ bytes) ctx] }) ∧
    (∀ n, s.classOf bytes = .frameRestart → fragmentCount bytes = some n → n ≠ 0 →
      exec (.chunk bytes ctx) s = .next { s with
        fsm := .assembling, rem := n.toNat, acc := bytes, result := .nothing,
        events := s.events ++ [.assemblyAbandoned s.acc] }) ∧
    (s.classOf bytes = .frameRestart → fragmentCount bytes = some 0 →
      exec (.chunk bytes ctx) s = .next { s with
        fsm := .idle, rem := 0, acc := [], result := .nothing,
        events := s.events ++ [.assemblyAbandoned s.acc, .frameEmitted bytes, validation bytes ctx] })) ∧
  (∀ s : State, exec .reset s = .next { s with fsm := .idle, rem := 0, acc := [], result := .nothing })

/-! ### What each instruction does, and its frame -/

/-- R136: `EMPTY` completes in either state and changes no register and emits no event. The spec's decision D9 (log 20). -/
def Obligations.EmptyChangesNothing : Prop :=
  ∀ s : State, exec .empty s = .next { s with result := .nothing }

/-- R131, with R135 for `N = 0`: `FRAME_START` in `Idle` stores the whole chunk, magic included, and loads `rem` with `N`;
with `N = 0` it emits the chunk as a frame, validates it and stays in `Idle`. Nothing else changes. The order of the two
events is the spec's decision D21 (log 20). -/
def Obligations.FrameStartStoresChunk : Prop :=
  ∀ (s : State) (n : Nibble) (rest : Buffer) (ctx : DevId), s.fsm = .idle →
    fitsDevId s.cfg.devIdWidth ctx = true →
    admitsCount s.cfg.magic3Mask n = true →
    withinBound s.cfg.maxChunkLen (frameWire n rest).length = true →
    withinBound s.cfg.accCapacity (frameWire n rest).length = true →
    exec (.frameStart n rest ctx) s =
      if n = 0 then
        .next { s with
          fsm := .idle, rem := 0, acc := [], result := .nothing,
          events := s.events ++ [.frameEmitted (frameWire n rest), validation (frameWire n rest) ctx] }
      else .next { s with fsm := .assembling, rem := n.toNat, acc := frameWire n rest, result := .nothing }

/-- R133: `FRAME_RESTART` in `Assembling` reports every byte of the abandoned assembly first, then starts afresh from the new
chunk; no byte of the old assembly is left. The order of the events is the spec's decision D21 (log 20). -/
def Obligations.FrameRestartAbandonsAssembly : Prop :=
  ∀ (s : State) (n : Nibble) (rest : Buffer) (ctx : DevId), s.fsm = .assembling →
    fitsDevId s.cfg.devIdWidth ctx = true →
    admitsCount s.cfg.magic3Mask n = true →
    withinBound s.cfg.maxChunkLen (frameWire n rest).length = true →
    withinBound s.cfg.accCapacity (frameWire n rest).length = true →
    exec (.frameRestart n rest ctx) s =
      if n = 0 then
        .next { s with
          fsm := .idle, rem := 0, acc := [], result := .nothing,
          events := s.events ++
            [.assemblyAbandoned s.acc, .frameEmitted (frameWire n rest), validation (frameWire n rest) ctx] }
      else .next { s with
          fsm := .assembling, rem := n.toNat, acc := frameWire n rest, result := .nothing,
          events := s.events ++ [.assemblyAbandoned s.acc] }

/-- R134, with R135 where the count reaches 0: `FRAGMENT` appends the chunk and counts down by exactly one, whatever the
chunk's length. The order of the two events is the spec's decision D21 (log 20). -/
def Obligations.FragmentAppendsAndCounts : Prop :=
  ∀ (s : State) (bytes : Buffer) (ctx : DevId), s.fsm = .assembling → 1 ≤ s.rem → s.CountFits → bytes ≠ [] →
    fitsDevId s.cfg.devIdWidth ctx = true →
    isMagic s.cfg.magic3Mask bytes = false →
    withinBound s.cfg.maxChunkLen bytes.length = true →
    withinBound s.cfg.accCapacity (s.acc.length + bytes.length) = true →
    exec (.fragment bytes ctx) s =
      if s.rem = 1 then
        .next { s with
          fsm := .idle, rem := 0, acc := [], result := .nothing,
          events := s.events ++ [.frameEmitted (s.acc ++ bytes), validation (s.acc ++ bytes) ctx] }
      else .next { s with rem := s.rem - 1, acc := s.acc ++ bytes, result := .nothing }

/-- R137: `UNRECOGNIZED` reports the chunk and changes no register. That the event carries the chunk is the spec's decision
D25 (log 20). -/
def Obligations.UnrecognizedReportsChunk : Prop :=
  ∀ (s : State) (raw : Buffer), s.fsm = .idle → raw ≠ [] → isMagic s.cfg.magic3Mask raw = false →
    ¬ ((raw.length = 11 ∨ raw.length = 8) ∧ readByte raw 1 = some 0x10) →
    withinBound s.cfg.maxChunkLen raw.length = true →
    exec (.unrecognized raw) s =
      .next { s with result := .nothing, events := s.events ++ [.unrecognized raw] }

/-- R162, with the byte orders of R75 and R76 (the spec's decisions D5, D6: log 9): `MB_WRITE_REQ` with `wbc <= 2` emits one
exchange with the data, the CRC over the first `7 + wbc` bytes and the field in the two bytes after them, and changes no
register. The layout for `wbc < 2` is the spec's decision D7 (log 10). -/
def Obligations.RequestInReachChecksCrc : Prop :=
  ∀ (s : State) (unit a1 a0 q1 q0 wbc d0 d1 d2 d3 : Byte), s.fsm = .idle → wbc.toNat ≤ 2 →
    withinBound s.cfg.maxChunkLen 11 = true →
    ∃ (data : Buffer) (field computed : Word16),
      exec (.mbWriteReq unit (be16 a1 a0) (be16 q1 q0) wbc d0 d1 d2 d3) s =
        .next { s with
          result := .nothing
          events := s.events ++ [.modbusExchange {
            kind := .request, raw := [unit, 0x10, a1, a0, q1, q0, wbc, d0, d1, d2, d3], unit := unit,
            addr := be16 a1 a0, qty := be16 q1 q0, wbc := some wbc, data := some data,
            crcField := some field, crcCalc := some computed, crcOk := computed == field,
            category := categoryOf (be16 a1 a0) }] } ∧
      .ok computed = crc16 s.cfg [unit, 0x10, a1, a0, q1, q0, wbc, d0, d1, d2, d3] (7 + wbc.toNat) ∧
      (wbc = 0 → data = [] ∧ field.toNat = d0.toNat * 256 + d1.toNat) ∧
      (wbc = 1 → data = [d0] ∧ field.toNat = d1.toNat * 256 + d2.toNat) ∧
      (wbc = 2 → data = [d0, d1] ∧ field.toNat = d2.toNat * 256 + d3.toNat)

/-- R163: `MB_WRITE_REQ` with `wbc >= 3` computes nothing and reports the failed check, data, field and CRC absent. The
spec's decision D7 (log 10). -/
def Obligations.RequestOutOfReachFailsCheck : Prop :=
  ∀ (s : State) (unit : Byte) (addr qty : Word16) (wbc d0 d1 d2 d3 : Byte), s.fsm = .idle → 3 ≤ wbc.toNat →
    withinBound s.cfg.maxChunkLen 11 = true →
    exec (.mbWriteReq unit addr qty wbc d0 d1 d2 d3) s =
      .next { s with
        result := .nothing
        events := s.events ++ [.modbusExchange {
          kind := .request, raw := mbReqWire unit addr qty wbc d0 d1 d2 d3, unit := unit, addr := addr, qty := qty,
          wbc := some wbc, data := none, crcField := none, crcCalc := none, crcOk := false,
          category := categoryOf addr }] }

/-- R166, with the byte orders of R75 and R76 (the spec's decisions D5, D6: log 9): `MB_WRITE_RSP` emits one exchange with
the CRC over the first six bytes and the field in the last two, and changes no register. -/
def Obligations.ResponseChecksCrc : Prop :=
  ∀ (s : State) (unit a1 a0 q1 q0 c1 c0 : Byte), s.fsm = .idle → withinBound s.cfg.maxChunkLen 8 = true →
    ∃ computed : Word16,
      exec (.mbWriteRsp unit (be16 a1 a0) (be16 q1 q0) (be16 c1 c0)) s =
        .next { s with
          result := .nothing
          events := s.events ++ [.modbusExchange {
            kind := .response, raw := [unit, 0x10, a1, a0, q1, q0, c1, c0], unit := unit,
            addr := be16 a1 a0, qty := be16 q1 q0, wbc := none, data := none,
            crcField := some (be16 c1 c0), crcCalc := some computed, crcOk := computed == be16 c1 c0,
            category := categoryOf (be16 a1 a0) }] } ∧
      .ok computed = crc16 s.cfg [unit, 0x10, a1, a0, q1, q0, c1, c0] 6 ∧
      (be16 a1 a0).toNat = a1.toNat * 256 + a0.toNat ∧ (be16 q1 q0).toNat = q1.toNat * 256 + q0.toNat ∧
      (be16 c1 c0).toNat = c1.toNat * 256 + c0.toNat

/-- R164: the category of a write address, the same for requests and responses, whatever the CRC; a category is never an
error: whether an exchange reports one is settled by `crcOk` alone. -/
def Obligations.CategoryOfAddress : Prop :=
  categoryOf 0x161E = .configData ∧ categoryOf 0x1620 = .stateData ∧
  (∀ addr : Word16, addr ≠ 0x161E → addr ≠ 0x1620 → categoryOf addr = .uncategorized) ∧
  (∀ (cfg : Config) (unit : Byte) (addr qty crc : Word16) (wbc d0 d1 d2 d3 : Byte),
    (requestExchange cfg unit addr qty wbc d0 d1 d2 d3).category = categoryOf addr ∧
      (responseExchange cfg unit addr qty crc).category = categoryOf addr) ∧
  (∀ (x : Exchange) (c : Category),
    (Event.modbusExchange { x with category := c }).errorKind = (Event.modbusExchange x).errorKind)

/-- R161: in `Idle` a chunk is a request or a response by its exact length and the byte at offset 1 alone; no other byte takes
part, under either mask. -/
def Obligations.RecognitionByLengthAndFunctionCode : Prop :=
  ∀ (mask : Magic3Mask) (chunk : Buffer),
    (classify mask .idle chunk = .mbWriteReq ↔ chunk.length = 11 ∧ readByte chunk 1 = some 0x10) ∧
    (classify mask .idle chunk = .mbWriteRsp ↔ chunk.length = 8 ∧ readByte chunk 1 = some 0x10)

/-- R214: `CHUNK` runs exactly the class its chunk decodes to in the current state. -/
def Obligations.ChunkRunsItsClass : Prop :=
  ∀ (s : State) (bytes : Buffer) (ctx : DevId),
    exec (.chunk bytes ctx) s = exec (decodeChunk s.cfg.magic3Mask s.fsm bytes ctx).toInstr s

/-- R214, R15: with unbounded buffers `CHUNK` completes on every chunk in every state, and touches neither the parameters nor
the operations still waiting. -/
def Obligations.ChunkCompletes : Prop :=
  ∀ (s : State) (bytes : Buffer) (ctx : DevId), Unbounded s.cfg → fitsDevId s.cfg.devIdWidth ctx = true →
    ∃ t, exec (.chunk bytes ctx) s = .next t ∧ t.cfg = s.cfg ∧ t.input = s.input ∧ t.result = .nothing

/-- R100, R101: a direct `CRC16` within its buffer returns `hi * 256 + lo` of the left fold of the byte step over the first
`length` bytes from `(0xFF, 0xFF)`, and changes nothing else. -/
def Obligations.CrcFoldsByteStep : Prop :=
  ∀ (s : State) (buffer : Buffer) (length : Nat), length ≤ buffer.length →
    let byteStep : Byte × Byte → Byte → Byte × Byte := fun r b =>
      (r.2 ^^^ tableRead s.cfg.hiTable (r.1 ^^^ b), tableRead s.cfg.loTable (r.1 ^^^ b))
    let regs := (buffer.take length).foldl byteStep (0xFF, 0xFF)
    ∃ value : Word16, exec (.crc16 buffer length) s = .next { s with result := .crc value } ∧
      value.toNat = regs.1.toNat * 256 + regs.2.toNat

/-- R103: a `length` past the buffer is `OutOfRange`, no value; within it, only the first `length` bytes count. The spec's
decision D13 (log 20). -/
def Obligations.CrcLengthAgainstBuffer : Prop :=
  (∀ (s : State) (buffer : Buffer) (length : Nat), buffer.length < length →
    exec (.crc16 buffer length) s = .next { s with result := .outOfRange ⟨buffer, length⟩ }) ∧
  (∀ (s : State) (buffer other : Buffer) (length : Nat), length ≤ buffer.length → length ≤ other.length →
    buffer.take length = other.take length → exec (.crc16 buffer length) s = exec (.crc16 other length) s)

/-- R110: a direct `CSUM` of at least 300 bytes returns the sum modulo 256 of the bytes at offsets 0 to 298, of fewer raises
`OutOfRange`, and changes nothing else. -/
def Obligations.ChecksumSumsWindow : Prop :=
  ∀ (s : State) (buffer : Buffer),
    (300 ≤ buffer.length →
      ∃ value : Byte, exec (.csum buffer) s = .next { s with result := .checksum value } ∧
        value.toNat = ((buffer.take 299).map BitVec.toNat).sum % 256) ∧
    (buffer.length < 300 → exec (.csum buffer) s = .next { s with result := .outOfRange ⟨buffer, buffer.length⟩ })

/-- R111: a buffer of fewer than 300 bytes, 299 included, is `OutOfRange` and no sum; through a `CHUNK` it is never
raised, and a frame too short for `CSUM` is turned away by its length. -/
def Obligations.ChecksumRejectsShort : Prop :=
  (∀ (s : State) (buffer : Buffer), buffer.length < 300 →
    exec (.csum buffer) s = .next { s with result := .outOfRange ⟨buffer, buffer.length⟩ }) ∧
  (∀ (s t : State) (bytes : Buffer) (ctx : DevId) (e : OutOfRange),
    exec (.chunk bytes ctx) s = .next t → t.result ≠ .outOfRange e) ∧
  (∀ (frame : Buffer) (ctx : DevId), frame.length < 300 → validation frame ctx = .frameRejected .frameTooShort frame)

/-- R190, R196: `VALIDATE` emits exactly one event, decided by length, checksum, record type and source in this order, and
changes nothing else. -/
def Obligations.ValidateChecksInOrder : Prop :=
  ∀ (s : State) (frame : Buffer) (ctx : DevId), fitsDevId s.cfg.devIdWidth ctx = true →
    ∃ outcome : Event,
      exec (.validate frame ctx) s = .next { s with result := .nothing, events := s.events ++ [outcome] } ∧
      (frame.length < 300 → outcome = .frameRejected .frameTooShort frame) ∧
      (∀ stored typeByte sourceByte sum : Byte, 300 ≤ frame.length → readByte frame 299 = some stored →
        readByte frame 4 = some typeByte → readByte frame 5 = some sourceByte →
        sum.toNat = ((frame.take 299).map BitVec.toNat).sum % 256 →
        outcome =
          if stored ≠ sum then .frameRejected (.checksumMismatch sum stored) frame
          else if typeByte = 1 then .frameValid frame .config (if sourceByte = 0 then .master else .slave)
            (if sourceByte = 0 then 0 else ctx)
          else if typeByte = 2 then .frameValid frame .state (if sourceByte = 0 then .master else .slave)
            (if sourceByte = 0 then 0 else ctx)
          else if typeByte = 3 then .frameValid frame .deviceInfo (if sourceByte = 0 then .master else .slave)
            (if sourceByte = 0 then 0 else ctx)
          else .frameRejected (.unknownRecordType typeByte) frame)

/-- R210, R261: `RESET` gives `Idle`, 0, empty, silently; events already emitted, the parameters and the operations still
waiting stay. The spec's decision D20 (log 15). -/
def Obligations.ResetIsSilent : Prop :=
  ∀ s : State, exec .reset s = .next { s with fsm := .idle, rem := 0, acc := [], result := .nothing }

/-- R212 with R33: `STATUS` returns `(fsm, rem, len(acc))`, `fsm` as its bit, 0 for `Idle` and 1 for `Assembling` (R21), writes
nothing and emits nothing. The operation is the spec's decision D16 (log 20). -/
def Obligations.StatusReadsRegisters : Prop :=
  ∀ s : State,
    (s.fsm = .idle → exec .status s = .next { s with result := .status 0 s.rem s.acc.length }) ∧
    (s.fsm = .assembling → exec .status s = .next { s with result := .status 1 s.rem s.acc.length })

/-- The model's own choice (log 12): a class instruction given to `exec` in a state where R78 does not put its chunk in that
class is refused; `step` never does this (`RefusedExactlyOverCapacity`). -/
def Obligations.ClassOutsideItsStateRefused : Prop :=
  ∀ (s : State) (i : Instr) (cls : ChunkClass) (bytes : Buffer), i.cls = some cls → i.wire = some bytes →
    withinBound s.cfg.maxChunkLen bytes.length = true → s.classOf bytes ≠ cls →
    exec i s = .refused .notOfThisClass

/-! ### Properties of the engines and of the validator -/

/-- R106: appending the two CRC bytes in register order leaves the residue 0, for any tables whose entries at 0 are 0, as the
default ones are (log 5). -/
def Obligations.CrcResidueIsZero : Prop :=
  (∀ (cfg : Config) (w : Buffer), tableRead cfg.hiTable 0 = 0 → tableRead cfg.loTable 0 = 0 →
    crc16 cfg (w ++ [(crcRegs cfg w).hi, (crcRegs cfg w).lo]) (w.length + 2) = .ok 0 ∧
    crc16 cfg w w.length = .ok (be16 (crcRegs cfg w).hi (crcRegs cfg w).lo)) ∧
  tableRead defaultConfig.hiTable 0 = 0 ∧ tableRead defaultConfig.loTable 0 = 0

/-- R105: with the default tables (log 5) the engine computes the bit-by-bit CRC-16/MODBUS, reflected polynomial `0xA001`,
with its two bytes swapped. -/
def Obligations.DefaultTablesComputeModbusCrc : Prop :=
  let bitStep : Word16 → Word16 := fun c => if c.getLsbD 0 then (c >>> 1) ^^^ 0xA001 else c >>> 1
  let byteStep : Word16 → Byte → Word16 := fun c b => Nat.repeat bitStep 8 (c ^^^ b.setWidth 16)
  ∀ (cfg : Config) (w : Buffer), cfg.hiTable = defaultConfig.hiTable → cfg.loTable = defaultConfig.loTable →
    crc16 cfg w w.length = .ok (be16 (lowByte (w.foldl byteStep 0xFFFF)) (highByte (w.foldl byteStep 0xFFFF)))

/-- R104: corner values of the default tables (log 5), and `length = 0` for any tables. -/
def Obligations.CrcCornerValues : Prop :=
  (∀ (cfg : Config) (buffer : Buffer), crc16 cfg buffer 0 = .ok 0xFFFF) ∧
  crc16 defaultConfig [0x00] 1 = .ok 0xBF40 ∧ crc16 defaultConfig [0xFF] 1 = .ok 0xFF00 ∧
  crc16 defaultConfig [0x01] 1 = .ok 0x7E80 ∧ crc16 defaultConfig (List.replicate 9 0) 9 = .ok 0x0AF0 ∧
  crc16 defaultConfig [0x31, 0x32, 0x33, 0x34, 0x35, 0x36, 0x37, 0x38, 0x39] 9 = .ok 0x374B

/-- R112: the checksum sees neither the order of the window's bytes nor any byte outside the window, and raising one byte of
the window by `d` raises it by `d` modulo 256. -/
def Obligations.ChecksumCoverage : Prop :=
  (∀ b c : Buffer, 300 ≤ b.length → 300 ≤ c.length → (b.take 299).Perm (c.take 299) → csum b = csum c) ∧
  (∀ (b : Buffer) (i : Nat) (old d : Byte), 300 ≤ b.length → i < 299 → readByte b i = some old →
    csum (b.set i (old + d)) = .ok (windowSum b + d) ∧ csum b = .ok (windowSum b)) ∧
  (∀ (b : Buffer) (x : Byte), 300 ≤ b.length → csum (b.set 299 x) = csum b)

/-- R190 to R194: exactly when a frame is reported valid, and what the event then says: the length, the checksum, the type,
and the identifier, 0 for Master and the injected one for Slave. -/
def Obligations.FrameValidExactlyWhen : Prop :=
  ∀ (frame g : Buffer) (ctx d : DevId) (rtype : RecordType) (source : Source),
    validation frame ctx = .frameValid g rtype source d ↔
      g = frame ∧ 300 ≤ frame.length ∧ readByte frame 299 = some (windowSum frame) ∧
        readByte frame 4 = some rtype.code ∧
        ((source = .master ∧ readByte frame 5 = some 0 ∧ d = 0) ∨
          (source = .slave ∧ (∃ b, readByte frame 5 = some b ∧ b ≠ 0) ∧ d = ctx))

/-- R271, R195: bytes at offsets 300 onward change no validation outcome; they are handed on with the frame. The spec's
decision D26 (log 20). -/
def Obligations.TrailingBytesUnread : Prop :=
  ∀ (frame tail : Buffer) (ctx : DevId), 300 ≤ frame.length →
    (∀ rtype source d, validation frame ctx = .frameValid frame rtype source d ↔
      validation (frame ++ tail) ctx = .frameValid (frame ++ tail) rtype source d) ∧
    (∀ why, validation frame ctx = .frameRejected why frame ↔
      validation (frame ++ tail) ctx = .frameRejected why (frame ++ tail))

/-- R88: a chunk made by `MBRSP` or by `MBREQ` passes its CRC check in `Idle`, whatever the tables. The pseudo-operations are
the spec's decision D18 (log 16), the byte orders of the CRC field and the quantity its decisions D5 and D6 (log 9). -/
def Obligations.PseudoExchangesPassCheck : Prop :=
  ∀ (s : State) (ctx : DevId) (unit : Byte) (addr qty : Word16) (d0 d1 : Byte), s.fsm = .idle →
    s.cfg.maxChunkLen = none →
    (∃ x t, exec (.chunk (mbRspChunk s.cfg unit addr qty) ctx) s = .next t ∧
      t.events = s.events ++ [.modbusExchange x] ∧ x.kind = .response ∧ x.crcOk = true ∧ x.unit = unit ∧
      x.addr = addr ∧ x.qty = qty ∧ x.raw = mbRspChunk s.cfg unit addr qty) ∧
    (∃ x t, exec (.chunk (mbReqChunk s.cfg unit addr qty d0 d1) ctx) s = .next t ∧
      t.events = s.events ++ [.modbusExchange x] ∧ x.kind = .request ∧ x.crcOk = true ∧ x.unit = unit ∧
      x.addr = addr ∧ x.qty = qty ∧ x.data = some [d0, d1] ∧ x.raw = mbReqChunk s.cfg unit addr qty d0 d1)

/-- R88: the pieces of a `SEND` are of the sizes asked for and put together are the bytes; and there are pieces exactly when
the sizes add up to the number of bytes. The spec's decision D18 (log 16). -/
def Obligations.SendSplitsBytes : Prop :=
  ∀ (bytes : Buffer) (sizes : List Nat),
    (∀ pieces, splitBytes bytes sizes = some pieces → pieces.flatten = bytes ∧ pieces.map List.length = sizes) ∧
    ((splitBytes bytes sizes).isSome = true ↔ sizes.sum = bytes.length)

/-- R221: the spec's own event codes, kind by kind; code 0 is no event's. The spec's decision D15 (log 19). -/
def Obligations.DefaultEventCodes : Prop :=
  (∀ e : Event, 1 ≤ e.code defaultConfig ∧ e.code defaultConfig ≤ 9) ∧
  (∀ (f : Buffer) (x : Exchange) (t : RecordType) (src : Source) (d : DevId) (a b : Byte),
    (Event.frameEmitted f).code defaultConfig = 1 ∧ (Event.frameValid f t src d).code defaultConfig = 2 ∧
    (Event.frameRejected .frameTooShort f).code defaultConfig = 3 ∧
    (Event.frameRejected (.checksumMismatch a b) f).code defaultConfig = 4 ∧
    (Event.frameRejected (.unknownRecordType a) f).code defaultConfig = 5 ∧
    (Event.assemblyAbandoned f).code defaultConfig = 6 ∧
    (Event.modbusExchange x).code defaultConfig = (if x.crcOk then 7 else 8) ∧
    (Event.unrecognized f).code defaultConfig = 9) ∧
  (∀ e : OutOfRange, (OpResult.outOfRange e).code defaultConfig = 10)
end

