-- ==== Sys2Proof/Laws/Buffers.lean ====
section
/-! SUPPORT. Small lemmas of the byte, field and buffer helpers. -/

namespace Sys2Proof

@[simp] theorem readByte_nil (i : Nat) : readByte [] i = none := by simp [readByte]

@[simp] theorem readByte_cons_zero (b : Byte) (bs : Buffer) : readByte (b :: bs) 0 = some b := rfl

@[simp] theorem readByte_cons_succ (b : Byte) (bs : Buffer) (i : Nat) :
    readByte (b :: bs) (i + 1) = readByte bs i := rfl

theorem readByte_eq_some_getElem (buf : Buffer) (i : Nat) (h : i < buf.length) : readByte buf i = some buf[i] := by
  simp [readByte, h]

theorem readByte_append_left (a b : Buffer) (i : Nat) (h : i < a.length) : readByte (a ++ b) i = readByte a i := by
  simp [readByte, List.getElem?_append_left h]

theorem upperNibble_toNat (b : Byte) : (upperNibble b).toNat = b.toNat / 16 := by
  have := b.isLt
  simp [upperNibble, BitVec.extractLsb'_toNat, Nat.shiftRight_eq_div_pow]
  omega

theorem nibbleByte_toNat (n : Nibble) : (nibbleByte n).toNat = n.toNat * 16 := by
  revert n; decide

@[simp] theorem upperNibble_nibbleByte (n : Nibble) : upperNibble (nibbleByte n) = n := by
  revert n; decide

theorem nibbleByte_upperNibble_of_exact (b : Byte) (h : magic3Ok .exact b = true) : nibbleByte (upperNibble b) = b := by
  revert b; decide

theorem nibbleByte_upperNibble_of_upperFree (b : Byte) (h : magic3Ok .upperFree b = true) :
    nibbleByte (upperNibble b) = b := by
  revert b; decide

theorem nibbleByte_upperNibble (mask : Magic3Mask) (b : Byte) (h : magic3Ok mask b = true) :
    nibbleByte (upperNibble b) = b := by
  cases mask
  · exact nibbleByte_upperNibble_of_exact b h
  · exact nibbleByte_upperNibble_of_upperFree b h

theorem admitsCount_exact (n : Nibble) : admitsCount .exact n = (n == 9) := by
  revert n; decide

theorem admitsCount_upperFree (n : Nibble) : admitsCount .upperFree n = true := by
  revert n; decide

theorem be16_toNat (b0 b1 : Byte) : (be16 b0 b1).toNat = b0.toNat * 256 + b1.toNat := by
  have h1 := b1.isLt
  have h : (be16 b0 b1).toNat = b0.toNat <<< 8 ||| b1.toNat := BitVec.toNat_append b0 b1
  rw [h, ← Nat.shiftLeft_add_eq_or_of_lt h1, Nat.shiftLeft_eq]

@[simp] theorem highByte_be16 (b0 b1 : Byte) : highByte (be16 b0 b1) = b0 := by
  have h0 := b0.isLt
  have h1 := b1.isLt
  apply BitVec.eq_of_toNat_eq
  rw [highByte, BitVec.extractLsb'_toNat, be16_toNat, Nat.shiftRight_eq_div_pow]
  omega

@[simp] theorem lowByte_be16 (b0 b1 : Byte) : lowByte (be16 b0 b1) = b1 := by
  have h1 := b1.isLt
  apply BitVec.eq_of_toNat_eq
  rw [lowByte, BitVec.extractLsb'_toNat, be16_toNat, Nat.shiftRight_eq_div_pow]
  omega

@[simp] theorem be16_high_low (w : Word16) : be16 (highByte w) (lowByte w) = w := by
  have h := w.isLt
  apply BitVec.eq_of_toNat_eq
  rw [be16_toNat, highByte, lowByte, BitVec.extractLsb'_toNat, BitVec.extractLsb'_toNat, Nat.shiftRight_eq_div_pow,
    Nat.shiftRight_eq_div_pow]
  omega

@[simp] theorem withinBound_none (len : Nat) : withinBound none len = true := rfl

@[simp] theorem withinBound_some (m len : Nat) : withinBound (some m) len = decide (len ≤ m) := rfl

@[simp] theorem frameWire_length (n : Nibble) (rest : Buffer) : (frameWire n rest).length = rest.length + 4 := rfl

@[simp] theorem fragmentCount_frameWire (n : Nibble) (rest : Buffer) : fragmentCount (frameWire n rest) = some n := by
  simp [fragmentCount, frameWire]

@[simp] theorem mbReqWire_length (unit : Byte) (addr qty : Word16) (wbc d0 d1 d2 d3 : Byte) :
    (mbReqWire unit addr qty wbc d0 d1 d2 d3).length = 11 := rfl

@[simp] theorem mbRspWire_length (unit : Byte) (addr qty crc : Word16) : (mbRspWire unit addr qty crc).length = 8 := rfl

end Sys2Proof
end

