-- ==== Sys2Proof/Laws/Decode.lean ====
section
/-! SUPPORT. Lemmas of the context's width, the bit of `fsm`, the magic compare, the classes and the decoder. -/

namespace Sys2Proof

@[simp] theorem fitsDevId_zero (width : Nat) : fitsDevId width 0 = true := by simp [fitsDevId]

theorem fitsDevId_iff {width : Nat} {id : DevId} : fitsDevId width id = true ↔ id < 2 ^ width := by simp [fitsDevId]

/-- The two values of `fsm` have two bits (R21). -/
theorem Fsm.bit_inj {f g : Fsm} (h : f.bit = g.bit) : f = g := by
  cases f <;> cases g <;> first | rfl | exact absurd h (by decide)

theorem isMagic_cons (mask : Magic3Mask) (b0 b1 b2 b3 : Byte) (rest : Buffer) :
    isMagic mask (b0 :: b1 :: b2 :: b3 :: rest) = (b0 == 0x55 && b1 == 0xAA && b2 == 0xEB && magic3Ok mask b3) := by
  simp [isMagic, readByte]

@[simp] theorem isMagic_frameWire (mask : Magic3Mask) (n : Nibble) (rest : Buffer) :
    isMagic mask (frameWire n rest) = admitsCount mask n := by
  simp [frameWire, isMagic_cons, admitsCount]

/-- A chunk is magic exactly when it is the wire form of a start with a count the mask admits. -/
theorem isMagic_iff_frameWire (mask : Magic3Mask) (chunk : Buffer) :
    isMagic mask chunk = true ↔ ∃ n rest, chunk = frameWire n rest ∧ admitsCount mask n = true := by
  constructor
  · intro h
    match chunk with
    | b0 :: b1 :: b2 :: b3 :: rest =>
      rw [isMagic_cons] at h
      simp only [Bool.and_eq_true, beq_iff_eq] at h
      obtain ⟨⟨⟨rfl, rfl⟩, rfl⟩, h3⟩ := h
      refine ⟨upperNibble b3, rest, ?_, ?_⟩
      · rw [frameWire, nibbleByte_upperNibble mask b3 h3]
      · rw [admitsCount, nibbleByte_upperNibble mask b3 h3]; exact h3
    | [] => simp [isMagic] at h
    | [_] => simp [isMagic, readByte] at h
    | [_, _] => simp [isMagic, readByte] at h
    | [_, _, _] => simp [isMagic, readByte] at h
  · rintro ⟨n, rest, rfl, h⟩
    rw [isMagic_frameWire]; exact h

/-- Magic chunks have `0xAA` at offset 1, where a Modbus chunk has `0x10` (R80). -/
theorem readByte_one_of_isMagic {mask : Magic3Mask} {chunk : Buffer} (h : isMagic mask chunk = true) :
    readByte chunk 1 = some 0xAA := by
  obtain ⟨n, rest, rfl, -⟩ := (isMagic_iff_frameWire mask chunk).mp h
  rfl

theorem frameFields_frameWire (mask : Magic3Mask) (n : Nibble) (rest : Buffer) :
    frameFields mask (frameWire n rest) = if admitsCount mask n then some (n, rest) else none := by
  rw [← isMagic_frameWire mask n rest, ← upperNibble_nibbleByte n]
  simp only [frameFields, frameWire, upperNibble_nibbleByte]

theorem frameFields_of_not_magic {mask : Magic3Mask} {chunk : Buffer} (h : isMagic mask chunk = false) :
    frameFields mask chunk = none := by
  match chunk with
  | _ :: _ :: _ :: _ :: _ => simp [frameFields, h]
  | [] => rfl
  | [_] => rfl
  | [_, _] => rfl
  | [_, _, _] => rfl

@[simp] theorem classify_empty (mask : Magic3Mask) (fsm : Fsm) : classify mask fsm [] = .empty := by simp [classify]

theorem classify_magic {mask : Magic3Mask} {fsm : Fsm} {chunk : Buffer} (h : isMagic mask chunk = true) :
    classify mask fsm chunk = match fsm with | .idle => .frameStart | .assembling => .frameRestart := by
  have hne : chunk ≠ [] := by rintro rfl; simp [isMagic] at h
  cases fsm <;> simp [classify, h, hne]

theorem classify_assembling {mask : Magic3Mask} {chunk : Buffer} (hne : chunk ≠ []) (h : isMagic mask chunk = false) :
    classify mask .assembling chunk = .fragment := by
  simp [classify, h, hne]

theorem classify_idle {mask : Magic3Mask} {chunk : Buffer} (hne : chunk ≠ []) (h : isMagic mask chunk = false) :
    classify mask .idle chunk =
      if chunk.length = 11 ∧ readByte chunk 1 = some mbFunctionCode then .mbWriteReq
      else if chunk.length = 8 ∧ readByte chunk 1 = some mbFunctionCode then .mbWriteRsp else .unrecognized := by
  simp [classify, h, hne]

theorem isMagic_of_byte_one {mask : Magic3Mask} {chunk : Buffer} (h : readByte chunk 1 = some mbFunctionCode) :
    isMagic mask chunk = false := by
  by_contra hm
  have := readByte_one_of_isMagic (mask := mask) (chunk := chunk) (by simpa using hm)
  rw [this] at h
  exact absurd h (by decide)

@[simp] theorem isMagic_mbReqWire (mask : Magic3Mask) (unit : Byte) (addr qty : Word16) (wbc d0 d1 d2 d3 : Byte) :
    isMagic mask (mbReqWire unit addr qty wbc d0 d1 d2 d3) = false := isMagic_of_byte_one rfl

@[simp] theorem isMagic_mbRspWire (mask : Magic3Mask) (unit : Byte) (addr qty crc : Word16) :
    isMagic mask (mbRspWire unit addr qty crc) = false := isMagic_of_byte_one rfl

theorem classify_mbReqWire (mask : Magic3Mask) (fsm : Fsm) (unit : Byte) (addr qty : Word16) (wbc d0 d1 d2 d3 : Byte) :
    classify mask fsm (mbReqWire unit addr qty wbc d0 d1 d2 d3) =
      match fsm with | .idle => .mbWriteReq | .assembling => .fragment := by
  cases fsm
  · rw [classify_idle (by simp [mbReqWire]) (by simp)]; simp [mbReqWire]
  · exact classify_assembling (by simp [mbReqWire]) (by simp)

theorem classify_mbRspWire (mask : Magic3Mask) (fsm : Fsm) (unit : Byte) (addr qty crc : Word16) :
    classify mask fsm (mbRspWire unit addr qty crc) =
      match fsm with | .idle => .mbWriteRsp | .assembling => .fragment := by
  cases fsm
  · rw [classify_idle (by simp [mbRspWire]) (by simp)]; simp [mbRspWire]
  · exact classify_assembling (by simp [mbRspWire]) (by simp)

theorem classify_frameWire {mask : Magic3Mask} {n : Nibble} (h : admitsCount mask n = true) (fsm : Fsm) (rest : Buffer) :
    classify mask fsm (frameWire n rest) = match fsm with | .idle => .frameStart | .assembling => .frameRestart :=
  classify_magic (by simpa using h)

theorem decodeChunk_mbReqWire (mask : Magic3Mask) (unit : Byte) (addr qty : Word16) (wbc d0 d1 d2 d3 : Byte) (ctx : DevId) :
    decodeChunk mask .idle (mbReqWire unit addr qty wbc d0 d1 d2 d3) ctx =
      .mbWriteReq unit addr qty wbc d0 d1 d2 d3 := by
  have hf := frameFields_of_not_magic (isMagic_mbReqWire mask unit addr qty wbc d0 d1 d2 d3)
  unfold mbReqWire at hf ⊢
  simp [decodeChunk, hf, decodeIdle]

theorem decodeChunk_mbRspWire (mask : Magic3Mask) (unit : Byte) (addr qty crc : Word16) (ctx : DevId) :
    decodeChunk mask .idle (mbRspWire unit addr qty crc) ctx = .mbWriteRsp unit addr qty crc := by
  have hf := frameFields_of_not_magic (isMagic_mbRspWire mask unit addr qty crc)
  unfold mbRspWire at hf ⊢
  simp [decodeChunk, hf, decodeIdle]

theorem decodeChunk_frameWire {mask : Magic3Mask} {n : Nibble} (h : admitsCount mask n = true) (fsm : Fsm) (rest : Buffer)
    (ctx : DevId) :
    decodeChunk mask fsm (frameWire n rest) ctx =
      match fsm with | .idle => .frameStart n rest ctx | .assembling => .frameRestart n rest ctx := by
  have hf := frameFields_frameWire mask n rest
  rw [if_pos h] at hf
  unfold frameWire at hf ⊢
  cases fsm <;> simp only [decodeChunk, hf]

theorem decodeChunk_fragment {mask : Magic3Mask} {chunk : Buffer} (hne : chunk ≠ []) (h : isMagic mask chunk = false)
    (ctx : DevId) : decodeChunk mask .assembling chunk ctx = .fragment chunk ctx := by
  match chunk, hne with
  | b :: bs, _ => simp [decodeChunk, frameFields_of_not_magic h]

/-- What a chunk decodes to, said once: one case for each class, with the bytes it has and the state it needs. -/
theorem decodeChunk_cases (mask : Magic3Mask) (fsm : Fsm) (chunk : Buffer) (ctx : DevId) :
    (chunk = [] ∧ decodeChunk mask fsm chunk ctx = .empty) ∨
    (fsm = .idle ∧ ∃ n rest, chunk = frameWire n rest ∧ admitsCount mask n = true ∧
      decodeChunk mask fsm chunk ctx = .frameStart n rest ctx) ∨
    (fsm = .assembling ∧ ∃ n rest, chunk = frameWire n rest ∧ admitsCount mask n = true ∧
      decodeChunk mask fsm chunk ctx = .frameRestart n rest ctx) ∨
    (fsm = .assembling ∧ chunk ≠ [] ∧ isMagic mask chunk = false ∧
      decodeChunk mask fsm chunk ctx = .fragment chunk ctx) ∨
    (fsm = .idle ∧ ∃ unit addr qty wbc d0 d1 d2 d3, chunk = mbReqWire unit addr qty wbc d0 d1 d2 d3 ∧
      decodeChunk mask fsm chunk ctx = .mbWriteReq unit addr qty wbc d0 d1 d2 d3) ∨
    (fsm = .idle ∧ ∃ unit addr qty crc, chunk = mbRspWire unit addr qty crc ∧
      decodeChunk mask fsm chunk ctx = .mbWriteRsp unit addr qty crc) ∨
    (fsm = .idle ∧ chunk ≠ [] ∧ isMagic mask chunk = false ∧ isModbus chunk = false ∧
      decodeChunk mask fsm chunk ctx = .unrecognized chunk) := by
  match chunk with
  | [] => exact .inl ⟨rfl, rfl⟩
  | b :: bs =>
    right
    cases hm : isMagic mask (b :: bs)
    · have hf := frameFields_of_not_magic hm
      cases fsm
      · have hd : decodeChunk mask .idle (b :: bs) ctx = decodeIdle (b :: bs) := by simp [decodeChunk, hf]
        rw [hd]
        right; right; right
        unfold decodeIdle
        split
        · rename_i u f a1 a0 q1 q0 w d0 d1 d2 d3 heq
          split
          · rename_i hfc
            left
            exact ⟨rfl, u, be16 a1 a0, be16 q1 q0, w, d0, d1, d2, d3, by simp [heq, mbReqWire, hfc], rfl⟩
          · rename_i hfc
            right; right
            refine ⟨rfl, by simp, rfl, ?_, by simp⟩
            simp [heq, isModbus, readByte, hfc]
        · rename_i u f a1 a0 q1 q0 c1 c0 heq
          split
          · rename_i hfc
            right; left
            exact ⟨rfl, u, be16 a1 a0, be16 q1 q0, be16 c1 c0, by simp [heq, mbRspWire, hfc], rfl⟩
          · rename_i hfc
            right; right
            refine ⟨rfl, by simp, rfl, ?_, by simp⟩
            simp [heq, isModbus, readByte, hfc]
        · rename_i h11 h8
          right; right
          refine ⟨rfl, by simp, rfl, ?_, rfl⟩
          by_contra hmod
          simp only [isModbus, Bool.not_eq_false, Bool.and_eq_true, Bool.or_eq_true, beq_iff_eq] at hmod
          rcases hmod.1 with hl | hl
          · match bs, hl with
            | [_, _, _, _, _, _, _, _, _, _], _ => exact h11 _ _ _ _ _ _ _ _ _ _ _ rfl
          · match bs, hl with
            | [_, _, _, _, _, _, _], _ => exact h8 _ _ _ _ _ _ _ _ rfl
      · right; right; left
        exact ⟨rfl, by simp, rfl, by simp [decodeChunk, hf]⟩
    · obtain ⟨n, rest, hw, hadm⟩ := (isMagic_iff_frameWire mask _).mp hm
      have hf : frameFields mask (b :: bs) = some (n, rest) := by rw [hw, frameFields_frameWire]; simp [hadm]
      cases fsm
      · left; exact ⟨rfl, n, rest, hw, hadm, by simp [decodeChunk, hf]⟩
      · right; left; exact ⟨rfl, n, rest, hw, hadm, by simp [decodeChunk, hf]⟩

end Sys2Proof
end

