-- ==== Sys2Proof/Laws/Events.lean ====
section
/-! SUPPORT. Small lemmas of the views of an event that statements use, one for each kind of event, and what the validator's
event is. -/

namespace Sys2Proof.Machine

@[simp] theorem Event.isFrameEmitted_frameEmitted (f : Buffer) : Event.isFrameEmitted (.frameEmitted f) = true := rfl

@[simp] theorem Event.isFrameEmitted_frameValid (f : Buffer) (t : RecordType) (src : Source) (d : DevId) : Event.isFrameEmitted (.frameValid f t src d) = false := rfl

@[simp] theorem Event.isFrameEmitted_frameRejected (w : Rejection) (f : Buffer) : Event.isFrameEmitted (.frameRejected w f) = false := rfl

@[simp] theorem Event.isFrameEmitted_assemblyAbandoned (p : Buffer) : Event.isFrameEmitted (.assemblyAbandoned p) = false := rfl

@[simp] theorem Event.isFrameEmitted_modbusExchange (x : Exchange) : Event.isFrameEmitted (.modbusExchange x) = false := rfl

@[simp] theorem Event.isFrameEmitted_unrecognized (r : Buffer) : Event.isFrameEmitted (.unrecognized r) = false := rfl

@[simp] theorem Event.isOutcome_frameEmitted (f : Buffer) : Event.isOutcome (.frameEmitted f) = false := rfl

@[simp] theorem Event.isOutcome_frameValid (f : Buffer) (t : RecordType) (src : Source) (d : DevId) : Event.isOutcome (.frameValid f t src d) = true := rfl

@[simp] theorem Event.isOutcome_frameRejected (w : Rejection) (f : Buffer) : Event.isOutcome (.frameRejected w f) = true := rfl

@[simp] theorem Event.isOutcome_assemblyAbandoned (p : Buffer) : Event.isOutcome (.assemblyAbandoned p) = false := rfl

@[simp] theorem Event.isOutcome_modbusExchange (x : Exchange) : Event.isOutcome (.modbusExchange x) = false := rfl

@[simp] theorem Event.isOutcome_unrecognized (r : Buffer) : Event.isOutcome (.unrecognized r) = false := rfl

@[simp] theorem Event.errorKind_frameEmitted (f : Buffer) : Event.errorKind (.frameEmitted f) = none := rfl

@[simp] theorem Event.errorKind_frameValid (f : Buffer) (t : RecordType) (src : Source) (d : DevId) : Event.errorKind (.frameValid f t src d) = none := rfl

@[simp] theorem Event.errorKind_assemblyAbandoned (p : Buffer) : Event.errorKind (.assemblyAbandoned p) = some .assemblyAbandoned := rfl

@[simp] theorem Event.errorKind_modbusExchange (x : Exchange) :
    Event.errorKind (.modbusExchange x) = if x.crcOk then none else some .crcMismatch := rfl

@[simp] theorem Event.errorKind_unrecognized (r : Buffer) : Event.errorKind (.unrecognized r) = none := rfl

@[simp] theorem Event.hideCtx_frameEmitted (f : Buffer) : Event.hideCtx (.frameEmitted f) = (.frameEmitted f) := rfl

@[simp] theorem Event.hideCtx_frameRejected (w : Rejection) (f : Buffer) : Event.hideCtx (.frameRejected w f) = (.frameRejected w f) := rfl

@[simp] theorem Event.hideCtx_assemblyAbandoned (p : Buffer) : Event.hideCtx (.assemblyAbandoned p) = (.assemblyAbandoned p) := rfl

@[simp] theorem Event.hideCtx_modbusExchange (x : Exchange) : Event.hideCtx (.modbusExchange x) = (.modbusExchange x) := rfl

@[simp] theorem Event.hideCtx_unrecognized (r : Buffer) : Event.hideCtx (.unrecognized r) = (.unrecognized r) := rfl

/-- The validator's one event is an outcome. -/
@[simp] theorem validation_isOutcome (frame : Buffer) (ctx : DevId) : (validation frame ctx).isOutcome = true := by
  unfold validation typeAndSource
  split
  · rfl
  · simp only
    split
    · rfl
    · split <;> rfl

/-- The validator's one event is no finished frame. -/
@[simp] theorem validation_isFrameEmitted (frame : Buffer) (ctx : DevId) :
    (validation frame ctx).isFrameEmitted = false := by
  unfold validation typeAndSource
  split
  · rfl
  · simp only
    split
    · rfl
    · split <;> rfl

/-- Everything the validator can report of a frame of at least 300 bytes, with the bytes it read (R190). -/
theorem validation_long {frame : Buffer} (h : 300 ≤ frame.length) (ctx : DevId) :
    ∃ stored typeByte sourceByte, readByte frame 299 = some stored ∧ readByte frame 4 = some typeByte ∧
      readByte frame 5 = some sourceByte ∧
      validation frame ctx =
        if csumOk stored (windowSum frame) = false then .frameRejected (.checksumMismatch (windowSum frame) stored) frame
        else typeAndSource frame typeByte sourceByte ctx := by
  refine ⟨frame[299]'(by omega), frame[4]'(by omega), frame[5]'(by omega), ?_, ?_, ?_, ?_⟩
  · simp [readByte, show 299 < frame.length by omega]
  · simp [readByte, show 4 < frame.length by omega]
  · simp [readByte, show 5 < frame.length by omega]
  · unfold validation
    rw [dif_neg (by omega)]

/-- A short frame is rejected as too short (R191). -/
theorem validation_short {frame : Buffer} (h : frame.length < 300) (ctx : DevId) :
    validation frame ctx = .frameRejected .frameTooShort frame := by
  unfold validation
  rw [dif_pos h]

end Sys2Proof.Machine
end

