-- ==== Sys2Proof/Laws/Integrity.lean ====
section
/-! SUPPORT. For each integrity engine what it can answer, and the small lemmas of its fold. -/

namespace Sys2Proof.Machine

@[simp] theorem CrcRegs.value_toNat (r : CrcRegs) : r.value.toNat = r.hi.toNat * 256 + r.lo.toNat := be16_toNat r.hi r.lo

@[simp] theorem crcRegs_nil (cfg : Config) : crcRegs cfg [] = crcSeed := rfl

theorem crcRegs_append_one (cfg : Config) (w : Buffer) (b : Byte) :
    crcRegs cfg (w ++ [b]) = crcStep cfg (crcRegs cfg w) b := by simp [crcRegs]

/-- `CRC16` within the buffer (R100). -/
theorem crc16_of_le (cfg : Config) {buffer : Buffer} {length : Nat} (h : length ≤ buffer.length) :
    crc16 cfg buffer length = .ok (crcRegs cfg (buffer.take length)).value := by
  simp [crc16, Nat.not_lt.mpr h]

/-- `CRC16` past the buffer (R103). -/
theorem crc16_of_lt (cfg : Config) {buffer : Buffer} {length : Nat} (h : buffer.length < length) :
    crc16 cfg buffer length = .error ⟨buffer, length⟩ := by
  simp [crc16, h]

/-- `CSUM` of a long enough buffer (R110). -/
theorem csum_of_le {buffer : Buffer} (h : 300 ≤ buffer.length) : csum buffer = .ok (windowSum buffer) := by
  simp [csum, Nat.not_lt.mpr h]

/-- `CSUM` of a short buffer (R111). -/
theorem csum_of_lt {buffer : Buffer} (h : buffer.length < 300) : csum buffer = .error ⟨buffer, buffer.length⟩ := by
  simp [csum, h]

/-- A stepwise 8-bit sum is the exact sum reduced once (R115). -/
theorem foldl_add_toNat (bytes : Buffer) (start : Byte) :
    (bytes.foldl (· + ·) start).toNat = (start.toNat + (bytes.map BitVec.toNat).sum) % 256 := by
  induction bytes generalizing start with
  | nil =>
    have := start.isLt
    simp
    omega
  | cons b bytes ih =>
    simp only [List.foldl_cons, ih, List.map_cons, List.sum_cons, BitVec.toNat_add]
    omega

theorem windowSum_toNat (buffer : Buffer) :
    (windowSum buffer).toNat = ((buffer.take 299).map BitVec.toNat).sum % 256 := by
  rw [windowSum, foldl_add_toNat]
  simp

end Sys2Proof.Machine
end

