-- ==== Sys2Proof/Laws/State.lean ====
section
/-! SUPPORT. One lemma for each field under each named update of the state, true by unfolding, so that no later proof
unfolds a record update. -/

namespace Sys2Proof.Machine

variable (s : State)

/-! ### `State.emit` -/

@[simp] theorem State.emit_fsm (e : Event) : (s.emit e).fsm = s.fsm := rfl

@[simp] theorem State.emit_rem (e : Event) : (s.emit e).rem = s.rem := rfl

@[simp] theorem State.emit_acc (e : Event) : (s.emit e).acc = s.acc := rfl

@[simp] theorem State.emit_cfg (e : Event) : (s.emit e).cfg = s.cfg := rfl

@[simp] theorem State.emit_input (e : Event) : (s.emit e).input = s.input := rfl

@[simp] theorem State.emit_events (e : Event) : (s.emit e).events = s.events ++ [e] := rfl

@[simp] theorem State.emit_result (e : Event) : (s.emit e).result = s.result := rfl

/-! ### `State.answer` -/

@[simp] theorem State.answer_fsm (r : OpResult) : (s.answer r).fsm = s.fsm := rfl

@[simp] theorem State.answer_rem (r : OpResult) : (s.answer r).rem = s.rem := rfl

@[simp] theorem State.answer_acc (r : OpResult) : (s.answer r).acc = s.acc := rfl

@[simp] theorem State.answer_cfg (r : OpResult) : (s.answer r).cfg = s.cfg := rfl

@[simp] theorem State.answer_input (r : OpResult) : (s.answer r).input = s.input := rfl

@[simp] theorem State.answer_events (r : OpResult) : (s.answer r).events = s.events := rfl

@[simp] theorem State.answer_result (r : OpResult) : (s.answer r).result = r := rfl

/-! ### `State.clearAssembly` -/

@[simp] theorem State.clearAssembly_fsm : s.clearAssembly.fsm = .idle := rfl

@[simp] theorem State.clearAssembly_rem : s.clearAssembly.rem = 0 := rfl

@[simp] theorem State.clearAssembly_acc : s.clearAssembly.acc = [] := rfl

@[simp] theorem State.clearAssembly_cfg : s.clearAssembly.cfg = s.cfg := rfl

@[simp] theorem State.clearAssembly_input : s.clearAssembly.input = s.input := rfl

@[simp] theorem State.clearAssembly_events : s.clearAssembly.events = s.events := rfl

@[simp] theorem State.clearAssembly_result : s.clearAssembly.result = s.result := rfl

/-! ### `State.present` -/

@[simp] theorem State.present_fsm (ops : List Operation) : (s.present ops).fsm = s.fsm := rfl

@[simp] theorem State.present_rem (ops : List Operation) : (s.present ops).rem = s.rem := rfl

@[simp] theorem State.present_acc (ops : List Operation) : (s.present ops).acc = s.acc := rfl

@[simp] theorem State.present_cfg (ops : List Operation) : (s.present ops).cfg = s.cfg := rfl

@[simp] theorem State.present_input (ops : List Operation) : (s.present ops).input = s.input ++ ops := rfl

@[simp] theorem State.present_events (ops : List Operation) : (s.present ops).events = s.events := rfl

@[simp] theorem State.present_result (ops : List Operation) : (s.present ops).result = s.result := rfl

/-! ### `State.validate` -/

@[simp] theorem State.validate_fsm (frame : Buffer) (ctx : DevId) : (s.validate frame ctx).fsm = s.fsm := rfl

@[simp] theorem State.validate_rem (frame : Buffer) (ctx : DevId) : (s.validate frame ctx).rem = s.rem := rfl

@[simp] theorem State.validate_acc (frame : Buffer) (ctx : DevId) : (s.validate frame ctx).acc = s.acc := rfl

@[simp] theorem State.validate_cfg (frame : Buffer) (ctx : DevId) : (s.validate frame ctx).cfg = s.cfg := rfl

@[simp] theorem State.validate_input (frame : Buffer) (ctx : DevId) : (s.validate frame ctx).input = s.input := rfl

@[simp] theorem State.validate_events (frame : Buffer) (ctx : DevId) : (s.validate frame ctx).events = s.events ++ [validation frame ctx] := rfl

@[simp] theorem State.validate_result (frame : Buffer) (ctx : DevId) : (s.validate frame ctx).result = s.result := rfl

/-! ### `State.complete` -/

@[simp] theorem State.complete_fsm (ctx : DevId) : (s.complete ctx).fsm = .idle := rfl

@[simp] theorem State.complete_rem (ctx : DevId) : (s.complete ctx).rem = 0 := rfl

@[simp] theorem State.complete_acc (ctx : DevId) : (s.complete ctx).acc = [] := rfl

@[simp] theorem State.complete_cfg (ctx : DevId) : (s.complete ctx).cfg = s.cfg := rfl

@[simp] theorem State.complete_input (ctx : DevId) : (s.complete ctx).input = s.input := rfl

@[simp] theorem State.complete_events (ctx : DevId) : (s.complete ctx).events = s.events ++ [.frameEmitted s.acc] ++ [validation s.acc ctx] := rfl

@[simp] theorem State.complete_result (ctx : DevId) : (s.complete ctx).result = s.result := rfl

/-! ### `State.withFetchWord` -/

@[simp] theorem State.withFetchWord_fsm (nbits w : Nat) : (s.withFetchWord nbits w).fsm = s.fsm := rfl

@[simp] theorem State.withFetchWord_rem (nbits w : Nat) : (s.withFetchWord nbits w).rem = s.rem := rfl

@[simp] theorem State.withFetchWord_acc (nbits w : Nat) : (s.withFetchWord nbits w).acc = s.acc := rfl

@[simp] theorem State.withFetchWord_cfg (nbits w : Nat) : (s.withFetchWord nbits w).cfg = s.cfg := rfl

@[simp] theorem State.withFetchWord_input (nbits w : Nat) : (s.withFetchWord nbits w).input = .chunk (tableChunk nbits w) 0 :: s.input := rfl

@[simp] theorem State.withFetchWord_events (nbits w : Nat) : (s.withFetchWord nbits w).events = s.events := rfl

@[simp] theorem State.withFetchWord_result (nbits w : Nat) : (s.withFetchWord nbits w).result = s.result := rfl

/-! ### `State.resetWith` -/

@[simp] theorem State.resetWith_fsm (cfg : Config) : (State.resetWith cfg).fsm = .idle := rfl

@[simp] theorem State.resetWith_rem (cfg : Config) : (State.resetWith cfg).rem = 0 := rfl

@[simp] theorem State.resetWith_acc (cfg : Config) : (State.resetWith cfg).acc = [] := rfl

@[simp] theorem State.resetWith_cfg (cfg : Config) : (State.resetWith cfg).cfg = cfg := rfl

@[simp] theorem State.resetWith_input (cfg : Config) : (State.resetWith cfg).input = [] := rfl

@[simp] theorem State.resetWith_events (cfg : Config) : (State.resetWith cfg).events = [] := rfl

@[simp] theorem State.resetWith_result (cfg : Config) : (State.resetWith cfg).result = .nothing := rfl

end Sys2Proof.Machine
end

