-- ==== Sys2Proof/Laws/Ops.lean ====
section
/-! SUPPORT. For each shared operation one lemma that says once everything it can answer; the provers cite these instead of
unfolding the operations. -/

namespace Sys2Proof.Machine

theorem State.classOf_eq (s : State) (chunk : Buffer) : s.classOf chunk = classify s.cfg.magic3Mask s.fsm chunk := rfl

/-! ### Delivery, append, store, fetch -/

theorem State.deliver_of_class {s : State} {cls : ChunkClass} {chunk : Buffer} (operation : Outcome)
    (hlen : withinBound s.cfg.maxChunkLen chunk.length = true) (hcls : s.classOf chunk = cls) :
    s.deliver cls chunk operation = operation := by
  simp [State.deliver, hlen, hcls]

theorem State.deliver_of_long {s : State} {cls : ChunkClass} {chunk : Buffer} (operation : Outcome)
    (hlen : withinBound s.cfg.maxChunkLen chunk.length = false) :
    s.deliver cls chunk operation = .refused .chunkTooLong := by
  simp [State.deliver, hlen]

/-- A delivered operation answers a next state only if the chunk is short enough and of the class. -/
theorem State.deliver_next {s t : State} {cls : ChunkClass} {chunk : Buffer} {operation : Outcome}
    (h : s.deliver cls chunk operation = .next t) :
    withinBound s.cfg.maxChunkLen chunk.length = true ∧ s.classOf chunk = cls ∧ operation = .next t := by
  unfold State.deliver at h
  split at h
  · cases h
  · split at h
    · rename_i h1 h2
      exact ⟨by simpa using h1, h2, h⟩
    · cases h

theorem State.append_eq_some {s t : State} {chunk : Buffer} :
    s.append chunk = some t ↔
      withinBound s.cfg.accCapacity (s.acc.length + chunk.length) = true ∧ t = { s with acc := s.acc ++ chunk } := by
  unfold State.append
  split
  · rename_i h
    exact ⟨fun e => ⟨h, (Option.some.inj e).symm⟩, fun e => by rw [e.2]⟩
  · rename_i h
    exact ⟨fun e => (by cases e), fun e => absurd e.1 h⟩

theorem State.append_eq_none {s : State} {chunk : Buffer} :
    s.append chunk = none ↔ withinBound s.cfg.accCapacity (s.acc.length + chunk.length) = false := by
  unfold State.append
  split <;> simp_all

theorem State.store_eq_some {s t : State} {chunk : Buffer} :
    s.store chunk = some t ↔ withinBound s.cfg.accCapacity chunk.length = true ∧ t = { s with acc := chunk } := by
  simp [State.store, State.append_eq_some]

theorem State.store_eq_none {s : State} {chunk : Buffer} :
    s.store chunk = none ↔ withinBound s.cfg.accCapacity chunk.length = false := by
  simp [State.store, State.append_eq_none]

@[simp] theorem State.fetch_nil {s : State} (h : s.input = []) : s.fetch = none := by simp [State.fetch, h]

theorem State.fetch_cons {s : State} {op : Operation} {waiting : List Operation} (h : s.input = op :: waiting) :
    s.fetch = some (op, { s with input := waiting }) := by simp [State.fetch, h]

/-! ### The context and the count -/

theorem State.takeContext_of_fits {s : State} {ctx : DevId} (operation : Outcome)
    (h : fitsDevId s.cfg.devIdWidth ctx = true) : s.takeContext ctx operation = operation := by
  simp [State.takeContext, h]

theorem State.takeContext_of_wide {s : State} {ctx : DevId} (operation : Outcome)
    (h : fitsDevId s.cfg.devIdWidth ctx = false) : s.takeContext ctx operation = .refused .contextTooWide := by
  simp [State.takeContext, h]

/-- An operation under a context answers a next state only if the context fits. -/
theorem State.takeContext_next {s t : State} {ctx : DevId} {operation : Outcome}
    (h : s.takeContext ctx operation = .next t) :
    fitsDevId s.cfg.devIdWidth ctx = true ∧ operation = .next t := by
  unfold State.takeContext at h
  split at h
  · rename_i hf; exact ⟨hf, h⟩
  · cases h

/-- A fragment count of four bits fits in the register as it is (R25). -/
@[simp] theorem loadCount_eq (cfg : Config) (n : Nibble) : loadCount cfg n = n.toNat := by
  have hw : 2 ^ 4 ≤ 2 ^ cfg.remWidth.val := Nat.pow_le_pow_right (by decide) cfg.remWidth.property
  simp only [loadCount, BitVec.toNat_setWidth]
  exact Nat.mod_eq_of_lt (by have := n.isLt; omega)

/-- The register counts down by one from every count of at least one that it can hold (R115). -/
theorem countDown_of_pos {cfg : Config} {r : Nat} (h : 1 ≤ r) (hr : r < 2 ^ cfg.remWidth.val) :
    countDown cfg r = r - 1 := by
  have h2 : 2 ^ 4 ≤ 2 ^ cfg.remWidth.val := Nat.pow_le_pow_right (by decide) cfg.remWidth.property
  have h1 : (1#cfg.remWidth.val).toNat = 1 := by
    rw [BitVec.toNat_ofNat]; exact Nat.mod_eq_of_lt (by omega)
  simp only [countDown, BitVec.toNat_sub, BitVec.ofNat_eq_ofNat, h1, BitVec.toNat_ofNat, Nat.mod_eq_of_lt hr]
  rw [show 2 ^ cfg.remWidth.val - 1 + r = (r - 1) + 2 ^ cfg.remWidth.val by omega, Nat.add_mod_right]
  exact Nat.mod_eq_of_lt (by omega)

/-- Of the numbers the register can hold, 1 alone counts down to 0 (R134). -/
theorem countDown_eq_zero {cfg : Config} {r : Nat} (hr : r < 2 ^ cfg.remWidth.val) : countDown cfg r = 0 ↔ r = 1 := by
  have hw : 2 ^ 4 ≤ 2 ^ cfg.remWidth.val := Nat.pow_le_pow_right (by decide) cfg.remWidth.property
  rcases Nat.eq_zero_or_pos r with rfl | h
  · have h1 : (1#cfg.remWidth.val).toNat = 1 := by
      rw [BitVec.toNat_ofNat]; exact Nat.mod_eq_of_lt (by omega)
    have h0 : countDown cfg 0 = 2 ^ cfg.remWidth.val - 1 := by
      simp only [countDown, BitVec.toNat_sub, BitVec.ofNat_eq_ofNat, h1, BitVec.toNat_ofNat, Nat.zero_mod, Nat.add_zero]
      exact Nat.mod_eq_of_lt (by omega)
    omega
  · rw [countDown_of_pos h hr]; omega

/-- Every count of R24 fits in the register. -/
theorem lt_of_countInRange {cfg : Config} {r : Nat} (h : r ≤ 15) : r < 2 ^ cfg.remWidth.val := by
  have hw : 2 ^ 4 ≤ 2 ^ cfg.remWidth.val := Nat.pow_le_pow_right (by decide) cfg.remWidth.property
  omega

/-- The register holds a number of its width (R21). -/
theorem countDown_lt (cfg : Config) (r : Nat) : countDown cfg r < 2 ^ cfg.remWidth.val := BitVec.isLt _

/-! ### Completion and the start of a frame -/

/-- `complete` in one record (R135). -/
theorem State.complete_eq (ctx : DevId) (s : State) :
    s.complete ctx = { s with
      fsm := .idle, rem := 0, acc := [],
      events := s.events ++ [.frameEmitted s.acc, validation s.acc ctx] } := by
  simp [State.complete, State.clearAssembly, State.emit, State.validate]

/-- Everything the start of a frame can answer (R131, R146, R34). -/
theorem State.startFrame_eq (n : Nibble) (chunk : Buffer) (ctx : DevId) (s : State) :
    s.startFrame n chunk ctx =
      if fitsDevId s.cfg.devIdWidth ctx = false then .refused .contextTooWide
      else if withinBound s.cfg.accCapacity chunk.length = false then .refused .accCapacityExceeded
      else if n = 0 then
        .next { s with
          fsm := .idle, rem := 0, acc := [], result := .nothing,
          events := s.events ++ [.frameEmitted chunk, validation chunk ctx] }
      else .next { s with fsm := .assembling, rem := n.toNat, acc := chunk, result := .nothing } := by
  unfold State.startFrame State.takeContext
  cases hf : fitsDevId s.cfg.devIdWidth ctx
  · simp
  · cases h : withinBound s.cfg.accCapacity chunk.length
    · rw [State.store_eq_none.mpr h]; simp
    · rw [State.store_eq_some.mpr ⟨h, rfl⟩]
      by_cases hn : n = 0 <;> simp [hn, State.complete_eq, State.answer]

/-- Everything `FRAGMENT` can answer once delivered (R134, R146, R34). -/
theorem execFragment_eq {s : State} {bytes : Buffer} (ctx : DevId)
    (hlen : withinBound s.cfg.maxChunkLen bytes.length = true) (hcls : s.classOf bytes = .fragment) :
    execFragment bytes ctx s =
      if fitsDevId s.cfg.devIdWidth ctx = false then .refused .contextTooWide
      else if withinBound s.cfg.accCapacity (s.acc.length + bytes.length) = false then .refused .accCapacityExceeded
      else if countDown s.cfg s.rem = 0 then
        .next { s with
          fsm := .idle, rem := 0, acc := [], result := .nothing,
          events := s.events ++ [.frameEmitted (s.acc ++ bytes), validation (s.acc ++ bytes) ctx] }
      else .next { s with rem := countDown s.cfg s.rem, acc := s.acc ++ bytes, result := .nothing } := by
  unfold execFragment
  rw [State.deliver_of_class _ hlen hcls, State.takeContext]
  cases hf : fitsDevId s.cfg.devIdWidth ctx
  · simp
  · cases h : withinBound s.cfg.accCapacity (s.acc.length + bytes.length)
    · rw [State.append_eq_none.mpr h]; simp
    · rw [State.append_eq_some.mpr ⟨h, rfl⟩]
      by_cases hr : countDown s.cfg s.rem = 0
      · simp [hr, State.complete_eq, State.answer]
      · simp only [hr, if_false, if_true, State.answer, Bool.true_eq_false]

/-! ### What one chunk can do -/

/-- What a delivered chunk can do, said once: if `CHUNK` answers a next state, the chunk is short enough and exactly one of
these nine cases holds, the rows of R138 with their bytes. -/
theorem execChunk_next_cases {s t : State} {bytes : Buffer} {ctx : DevId} (h : execChunk bytes ctx s = .next t) :
    withinBound s.cfg.maxChunkLen bytes.length = true ∧
    ((bytes = [] ∧ t = { s with result := .nothing }) ∨
     (∃ n rest, bytes = frameWire n rest ∧ admitsCount s.cfg.magic3Mask n = true ∧
       fitsDevId s.cfg.devIdWidth ctx = true ∧ withinBound s.cfg.accCapacity bytes.length = true ∧
       ∃ abandoned, ((s.fsm = .idle ∧ abandoned = []) ∨ (s.fsm = .assembling ∧ abandoned = [.assemblyAbandoned s.acc])) ∧
       ((n = 0 ∧ t = { s with
          fsm := .idle, rem := 0, acc := [], result := .nothing,
          events := s.events ++ (abandoned ++ [.frameEmitted bytes, validation bytes ctx]) }) ∨
        (n ≠ 0 ∧ t = { s with
          fsm := .assembling, rem := n.toNat, acc := bytes, result := .nothing, events := s.events ++ abandoned }))) ∨
     (s.fsm = .assembling ∧ bytes ≠ [] ∧ isMagic s.cfg.magic3Mask bytes = false ∧
       fitsDevId s.cfg.devIdWidth ctx = true ∧ withinBound s.cfg.accCapacity (s.acc.length + bytes.length) = true ∧
       ((countDown s.cfg s.rem = 0 ∧ t = { s with
          fsm := .idle, rem := 0, acc := [], result := .nothing,
          events := s.events ++ [.frameEmitted (s.acc ++ bytes), validation (s.acc ++ bytes) ctx] }) ∨
        (countDown s.cfg s.rem ≠ 0 ∧ t = { s with rem := countDown s.cfg s.rem, acc := s.acc ++ bytes, result := .nothing }))) ∨
     (s.fsm = .idle ∧ bytes ≠ [] ∧ isMagic s.cfg.magic3Mask bytes = false ∧
       ∃ e, t = { s with result := .nothing, events := s.events ++ [e] } ∧
         ((∃ x, e = .modbusExchange x) ∨ e = .unrecognized bytes))) := by
  unfold execChunk at h
  rcases decodeChunk_cases s.cfg.magic3Mask s.fsm bytes ctx with ⟨hb, hd⟩ | ⟨hf, n, rest, hb, ha, hd⟩ | ⟨hf, n, rest, hb, ha, hd⟩ |
      ⟨hf, hb, hm, hd⟩ | ⟨hf, u, a, q, w, d0, d1, d2, d3, hb, hd⟩ | ⟨hf, u, a, q, c, hb, hd⟩ | ⟨hf, hb, hm, hmod, hd⟩ <;>
    rw [hd] at h
  · obtain ⟨hl, -, ht⟩ := State.deliver_next h
    refine ⟨by rw [hb]; exact hl, .inl ⟨hb, ?_⟩⟩
    injection ht with ht
    exact ht.symm
  · obtain ⟨hl, -, ht⟩ := State.deliver_next h
    rw [State.startFrame_eq] at ht
    subst hb
    refine ⟨hl, .inr (.inl ⟨n, rest, rfl, ha, ?_⟩)⟩
    split at ht
    · cases ht
    rename_i hx
    split at ht
    · cases ht
    · rename_i hc
      refine ⟨by simpa using hx, by simpa using hc, [], .inl ⟨hf, rfl⟩, ?_⟩
      split at ht <;> rename_i hn <;> injection ht with ht
      · exact .inl ⟨hn, ht.symm⟩
      · exact .inr ⟨hn, by simp [← ht]⟩
  · obtain ⟨hl, -, ht⟩ := State.deliver_next h
    rw [State.startFrame_eq] at ht
    subst hb
    refine ⟨hl, .inr (.inl ⟨n, rest, rfl, ha, ?_⟩)⟩
    split at ht
    · cases ht
    rename_i hx
    split at ht
    · cases ht
    · rename_i hc
      refine ⟨by simpa using hx, by simpa using hc, [.assemblyAbandoned s.acc], .inr ⟨hf, rfl⟩, ?_⟩
      split at ht <;> rename_i hn <;> injection ht with ht
      · refine .inl ⟨hn, ?_⟩
        rw [← ht]; simp [State.clearAssembly, State.emit]
      · refine .inr ⟨hn, ?_⟩
        rw [← ht]; simp [State.clearAssembly, State.emit]
  · have hl : withinBound s.cfg.maxChunkLen bytes.length = true := (State.deliver_next h).1
    have hcls : s.classOf bytes = .fragment := (State.deliver_next h).2.1
    simp only at h
    rw [execFragment_eq ctx hl hcls] at h
    refine ⟨hl, .inr (.inr (.inl ⟨hf, hb, hm, ?_⟩))⟩
    split at h
    · cases h
    rename_i hx
    split at h
    · cases h
    · rename_i hc
      refine ⟨by simpa using hx, by simpa using hc, ?_⟩
      split at h <;> rename_i hr <;> injection h with h
      · exact .inl ⟨hr, h.symm⟩
      · exact .inr ⟨hr, h.symm⟩
  · obtain ⟨hl, -, ht⟩ := State.deliver_next h
    subst hb
    refine ⟨hl, .inr (.inr (.inr ⟨hf, by simp [mbReqWire], by simp, ?_⟩))⟩
    injection ht with ht
    exact ⟨_, ht.symm, .inl ⟨_, rfl⟩⟩
  · obtain ⟨hl, -, ht⟩ := State.deliver_next h
    subst hb
    refine ⟨hl, .inr (.inr (.inr ⟨hf, by simp [mbRspWire], by simp, ?_⟩))⟩
    injection ht with ht
    exact ⟨_, ht.symm, .inl ⟨_, rfl⟩⟩
  · obtain ⟨hl, -, ht⟩ := State.deliver_next h
    refine ⟨hl, .inr (.inr (.inr ⟨hf, hb, hm, ?_⟩))⟩
    injection ht with ht
    exact ⟨_, ht.symm, .inr rfl⟩

/-! ### What one step can do -/

theorem exec_toInstr (mask : Magic3Mask) (s : State) (bytes : Buffer) (ctx : DevId) (h : mask = s.cfg.magic3Mask) :
    exec (decodeChunk mask s.fsm bytes ctx).toInstr s = execChunk bytes ctx s := by
  subst h
  unfold execChunk
  cases decodeChunk s.cfg.magic3Mask s.fsm bytes ctx <;> rfl

/-- A step on a waiting chunk is `CHUNK` on it. -/
theorem step_chunk {s : State} {bytes : Buffer} {ctx : DevId} {waiting : List Operation}
    (h : s.input = .chunk bytes ctx :: waiting) : step s = execChunk bytes ctx { s with input := waiting } := by
  simp only [step, State.fetch_cons h, decode]
  rw [exec_toInstr _ { s with input := waiting } _ _ rfl]

/-- What a step can do, said once: nothing is presented and nothing changes, a chunk is delivered, or a direct operation
answers or clears. -/
theorem step_next_cases {s t : State} (h : step s = .next t) :
    (s.input = [] ∧ t = s) ∨
    ∃ op waiting, s.input = op :: waiting ∧
      ((∃ bytes ctx, op = .chunk bytes ctx ∧ execChunk bytes ctx { s with input := waiting } = .next t) ∨
       (∃ r, t = { s with input := waiting, result := r } ∧ ∀ b c, op ≠ .chunk b c) ∨
       (∃ frame ctx, op = .validate frame ctx ∧ fitsDevId s.cfg.devIdWidth ctx = true ∧
         t = { s with input := waiting, result := .nothing, events := s.events ++ [validation frame ctx] }) ∨
       (op = .reset ∧ t = { s with input := waiting, fsm := .idle, rem := 0, acc := [], result := .nothing })) := by
  unfold step at h
  cases hi : s.input with
  | nil => rw [State.fetch_nil hi] at h; injection h with h; exact .inl ⟨rfl, h.symm⟩
  | cons op waiting =>
    rw [State.fetch_cons hi] at h
    refine .inr ⟨op, waiting, rfl, ?_⟩
    cases op with
    | chunk bytes ctx => exact .inl ⟨bytes, ctx, rfl, by rw [← h]; exact (exec_toInstr _ _ _ _ rfl).symm⟩
    | crc16 buffer length => injection h with h; exact .inr (.inl ⟨_, h.symm, by simp⟩)
    | csum buffer => injection h with h; exact .inr (.inl ⟨_, h.symm, by simp⟩)
    | status => injection h with h; exact .inr (.inl ⟨_, h.symm, by simp⟩)
    | validate frame ctx =>
      obtain ⟨hx, h⟩ := State.takeContext_next (s := { s with input := waiting }) h
      injection h with h
      exact .inr (.inr (.inl ⟨frame, ctx, rfl, hx, h.symm⟩))
    | reset => injection h with h; exact .inr (.inr (.inr ⟨rfl, h.symm⟩))

end Sys2Proof.Machine
end

