-- ==== Sys2Proof/Laws/PerInstr.lean ====
section
/-! SUPPORT. The per-instruction family: the bytes of every well-formed class instruction are, in the state it belongs to, of
its class (R71 to R78). -/

namespace Sys2Proof.Laws.WireClass

/-- In every build and every state the instruction belongs to, its bytes on the link (if it has any) are of its class. -/
def Statement (i : Instr) : Prop :=
  ∀ (cfg : Config) (fsm : Fsm) (bytes : Buffer) (cls : ChunkClass), i.wf cfg = true → i.fitsState fsm = true →
    i.wire = some bytes → i.cls = some cls → classify cfg.magic3Mask fsm bytes = cls

theorem empty : Statement .empty := by
  intro cfg fsm bytes cls _ _ hw hc
  cases hw; cases hc
  exact classify_empty _ _

theorem frameStart (n : Nibble) (rest : Buffer) (ctx : DevId) : Statement (.frameStart n rest ctx) := by
  intro cfg fsm bytes cls hwf hfit hw hc
  cases hw; cases hc
  simp only [Instr.wf, Bool.and_eq_true] at hwf
  cases fsm
  · exact classify_frameWire hwf.1.1 .idle rest
  · exact absurd hfit (by simp [Instr.fitsState, Instr.fsmRule])

theorem frameRestart (n : Nibble) (rest : Buffer) (ctx : DevId) : Statement (.frameRestart n rest ctx) := by
  intro cfg fsm bytes cls hwf hfit hw hc
  cases hw; cases hc
  simp only [Instr.wf, Bool.and_eq_true] at hwf
  cases fsm
  · exact absurd hfit (by simp [Instr.fitsState, Instr.fsmRule])
  · exact classify_frameWire hwf.1.1 .assembling rest

theorem fragment (bytes : Buffer) (ctx : DevId) : Statement (.fragment bytes ctx) := by
  intro cfg fsm b cls hwf hfit hw hc
  cases hw; cases hc
  simp only [Instr.wf, Bool.and_eq_true, Bool.not_eq_true', List.isEmpty_eq_false_iff] at hwf
  cases fsm
  · exact absurd hfit (by simp [Instr.fitsState, Instr.fsmRule])
  · exact classify_assembling hwf.1.1.1 hwf.1.1.2

theorem mbWriteReq (unit : Byte) (addr qty : Word16) (wbc d0 d1 d2 d3 : Byte) :
    Statement (.mbWriteReq unit addr qty wbc d0 d1 d2 d3) := by
  intro cfg fsm bytes cls _ hfit hw hc
  cases hw; cases hc
  cases fsm
  · exact classify_mbReqWire _ .idle unit addr qty wbc d0 d1 d2 d3
  · exact absurd hfit (by simp [Instr.fitsState, Instr.fsmRule])

theorem mbWriteRsp (unit : Byte) (addr qty crc : Word16) : Statement (.mbWriteRsp unit addr qty crc) := by
  intro cfg fsm bytes cls _ hfit hw hc
  cases hw; cases hc
  cases fsm
  · exact classify_mbRspWire _ .idle unit addr qty crc
  · exact absurd hfit (by simp [Instr.fitsState, Instr.fsmRule])

theorem unrecognized (raw : Buffer) : Statement (.unrecognized raw) := by
  intro cfg fsm bytes cls hwf hfit hw hc
  cases hw; cases hc
  simp only [Instr.wf, Bool.and_eq_true, Bool.not_eq_true', List.isEmpty_eq_false_iff, isModbus] at hwf
  obtain ⟨⟨⟨hne, hm⟩, hmod⟩, -⟩ := hwf
  cases fsm
  · rw [classify_idle hne hm]
    split
    · rename_i h; simp [h] at hmod
    · split
      · rename_i h; simp [h] at hmod
      · rfl
  · exact absurd hfit (by simp [Instr.fitsState, Instr.fsmRule])

theorem chunk (bytes : Buffer) (ctx : DevId) : Statement (.chunk bytes ctx) := by
  intro _ _ _ _ _ _ hw _; cases hw

theorem crc16 (buffer : Buffer) (length : Nat) : Statement (.crc16 buffer length) := by
  intro _ _ _ _ _ _ hw _; cases hw

theorem csum (buffer : Buffer) : Statement (.csum buffer) := by
  intro _ _ _ _ _ _ hw _; cases hw

theorem validate (frame : Buffer) (ctx : DevId) : Statement (.validate frame ctx) := by
  intro _ _ _ _ _ _ hw _; cases hw

theorem reset : Statement .reset := by
  intro _ _ _ _ _ _ hw _; cases hw

theorem status : Statement .status := by
  intro _ _ _ _ _ _ hw _; cases hw

end Sys2Proof.Laws.WireClass
end

