-- ==== Sys2Proof/Laws/Table.lean ====
section
/-! SUPPORT. What each kind of row of the opcode table compares: one lemma for the frame rows, one for the Modbus rows, one for
the rows that compare no byte. -/

namespace Sys2Proof

/-- The four compared bytes of a frame row. -/
theorem frameRow_bytes (mask : Magic3Mask) :
    rowByte (frameMask mask) 0 = 0xFF ∧ rowByte (frameMask mask) 1 = 0xFF ∧ rowByte (frameMask mask) 2 = 0xFF ∧
    rowByte (frameMask mask) 3 = maskByte mask ∧ rowByte (framePattern mask) 0 = 0x55 ∧
    rowByte (framePattern mask) 1 = 0xAA ∧ rowByte (framePattern mask) 2 = 0xEB ∧
    rowByte (framePattern mask) 3 &&& maskByte mask = 0x90 &&& maskByte mask ∧ (maskByte mask == 0) = false := by
  cases mask <;> decide

/-- A frame row matches the magic chunks of its state (R77, R88). -/
theorem rowMatches_frame (mask : Magic3Mask) (cls : ChunkClass) (f fsm : Fsm) (priority : Nat) (chunk : Buffer) :
    rowMatches ⟨cls, framePattern mask, frameMask mask, .atLeast 4, some f, priority⟩ fsm chunk =
      (f == fsm && isMagic mask chunk) := by
  obtain ⟨m0, m1, m2, m3, p0, p1, p2, p3, mz⟩ := frameRow_bytes mask
  have q : ∀ x : Byte, ((x &&& 0xFF) == (85 : Byte) &&& 0xFF) = (x == 85#8) := by decide
  have q1 : ∀ x : Byte, ((x &&& 0xFF) == (170 : Byte) &&& 0xFF) = (x == 170#8) := by decide
  have q2 : ∀ x : Byte, ((x &&& 0xFF) == (235 : Byte) &&& 0xFF) = (x == 235#8) := by decide
  unfold rowMatches rowByteOk isMagic
  simp only [m0, m1, m2, m3, p0, p1, p2, p3, mz, lengthOk, Option.all_some]
  match chunk with
  | [] => simp [readByte]
  | [_] => simp [readByte]
  | [_, _] => simp [readByte]
  | [_, _, _] => simp [readByte]
  | a :: b :: c :: d :: rest =>
    have h4 : decide (4 ≤ (a :: b :: c :: d :: rest).length) = true := by simp
    simp only [h4, readByte, List.getElem?_cons_zero, List.getElem?_cons_succ, Option.any_some, q, q1, q2, magic3Ok]
    simp [Bool.and_assoc]

/-- A Modbus row matches by exact length, state and the byte at offset 1 (R88, R161). -/
theorem rowMatches_modbus (cls : ChunkClass) (len : Nat) (fsm : Fsm) (priority : Nat) (chunk : Buffer) :
    rowMatches ⟨cls, 0x00100000, 0x00FF0000, .exactly len, some .idle, priority⟩ fsm chunk =
      (chunk.length == len && Fsm.idle == fsm && readByte chunk 1 == some mbFunctionCode) := by
  have m0 : (rowByte 0x00FF0000 0 == 0) = true := by decide
  have m1 : (rowByte 0x00FF0000 1 == 0) = false := by decide
  have m2 : (rowByte 0x00FF0000 2 == 0) = true := by decide
  have m3 : (rowByte 0x00FF0000 3 == 0) = true := by decide
  have q : ∀ x : Byte, ((x &&& rowByte 0x00FF0000 1) == rowByte 0x00100000 1 &&& rowByte 0x00FF0000 1) =
      (x == mbFunctionCode) := by decide
  cases h : readByte chunk 1 <;>
    simp only [rowMatches, lengthOk, rowByteOk, m0, m1, m2, m3, h, q, Option.any_some, Option.any_none, Option.all_some] <;>
    simp

/-- A row that compares no byte matches by length and state alone (R88). -/
theorem rowMatches_any (cls : ChunkClass) (rule : LengthRule) (f : Option Fsm) (fsm : Fsm) (priority : Nat)
    (chunk : Buffer) :
    rowMatches ⟨cls, 0, 0, rule, f, priority⟩ fsm chunk = (lengthOk rule chunk.length && f.all (fun f => f == fsm)) := by
  simp [rowMatches, rowByteOk, rowByte]

end Sys2Proof
end

