-- ==== Sys2Proof/Tests/Slice0.lean ====
section
/-! SUPPORT. The model's own tests: the smoke test of `WellFormed`, the decoder on words written out from the formats of
`spec/30_encoding.md`, single steps on the vectors of `spec/95_test_vectors.md` (the name in each docstring), and for every
statement with hypotheses a witness that meets them together. -/

namespace Sys2Proof.Tests

open Sys2Proof.Machine

/-! ### Helpers -/

/-- The state an outcome answers, if it is a next state. -/
def after (o : Outcome) : Option State :=
  match o with
  | .next s => some s
  | .fault _ => none
  | .refused _ => none

/-- The reason an outcome refuses with, if it does. -/
def reason (o : Outcome) : Option Refusal :=
  match o with
  | .next _ => none
  | .fault _ => none
  | .refused r => some r

/-- The default parameters under `MAGIC3_MASK = 0x0F`. -/
def upperCfg : Config := { defaultConfig with magic3Mask := .upperFree }

/-- The default parameters with finite capacities. -/
def smallCfg (acc chunk : Nat) : Config := { defaultConfig with accCapacity := some acc, maxChunkLen := some chunk }

/-- The default tables under `MAGIC3_MASK = 0x0F`, with wider registers: a `rem` of 6 bits, identifiers of 16. -/
def wideCfg : Config := { upperCfg with remWidth := ⟨6, by decide⟩, devIdWidth := 16 }

/-- `Assembling` with a count and a buffer. -/
def assembling (cfg : Config) (rem : Nat) (acc : Buffer) : State :=
  { State.resetWith cfg with fsm := .assembling, rem := rem, acc := acc }

/-- A state with operations presented. -/
def given (s : State) (ops : List Operation) : State := s.present ops

/-- What a state shows of its registers, as `STATUS` would. -/
def triple (s : State) : Fsm × Nat × Nat := (s.fsm, s.rem, s.acc.length)

/-- Every field of an outcome's state but the parameters and the queue. -/
def view (o : Outcome) : Option (Fsm × Nat × Buffer × List Event × OpResult) :=
  (after o).map fun s => (s.fsm, s.rem, s.acc, s.events, s.result)

/-- The registers and the events after an outcome. -/
def shown (o : Outcome) : Option ((Fsm × Nat × Nat) × List Event) := (after o).map fun s => (triple s, s.events)

/-- The 300-byte frame with the default magic, a type byte, a source byte and a checksum byte. -/
def frame300 (t s c : Byte) : Buffer := [0x55, 0xAA, 0xEB, 0x90, t, s] ++ List.replicate 293 0 ++ [c]

/-- The request of T-MB-1. -/
def reqBytes : Buffer := [0x01, 0x10, 0x16, 0x1E, 0x00, 0x01, 0x02, 0x00, 0x00, 0xD2, 0x2F]

/-- The response of T-MB-2. -/
def rspBytes : Buffer := [0x01, 0x10, 0x16, 0x1E, 0x00, 0x01, 0x65, 0x87]

/-! ### Well-formedness: each check refuses an ill-formed term -/

theorem test_wf_start_count : (Instr.frameStart 2 [] 0).wf defaultConfig = false := by decide

theorem test_wf_start_length : (Instr.frameStart 9 [0] 0).wf (smallCfg 9 4) = false := by decide

theorem test_wf_restart_count : (Instr.frameRestart 0 [] 0).wf defaultConfig = false := by decide

theorem test_wf_restart_length : (Instr.frameRestart 9 [0] 0).wf (smallCfg 9 4) = false := by decide

theorem test_wf_fragment_empty : (Instr.fragment [] 0).wf defaultConfig = false := by decide

theorem test_wf_fragment_magic : (Instr.fragment [0x55, 0xAA, 0xEB, 0x90] 0).wf defaultConfig = false := by decide

theorem test_wf_fragment_length : (Instr.fragment [1, 2] 0).wf (smallCfg 9 1) = false := by decide

theorem test_wf_request_length : (Instr.mbWriteReq 1 0 0 2 0 0 0 0).wf (smallCfg 99 10) = false := by decide

theorem test_wf_response_length : (Instr.mbWriteRsp 1 0 0 0).wf (smallCfg 99 7) = false := by decide

theorem test_wf_unrecognized_empty : (Instr.unrecognized []).wf defaultConfig = false := by decide

theorem test_wf_unrecognized_magic : (Instr.unrecognized [0x55, 0xAA, 0xEB, 0x90]).wf defaultConfig = false := by decide

theorem test_wf_unrecognized_modbus : (Instr.unrecognized rspBytes).wf defaultConfig = false := by decide

theorem test_wf_unrecognized_length : (Instr.unrecognized [1, 2]).wf (smallCfg 9 1) = false := by decide

theorem test_wf_chunk_length : (Instr.chunk [1, 2] 0).wf (smallCfg 9 1) = false := by decide

/-- 256 is the first context that eight bits do not hold, 255 the last that they do. -/
theorem test_wf_context :
    ([.frameStart 9 [] 256, .frameRestart 9 [] 256, .fragment [1] 256, .chunk [] 256, .validate [] 256] : List Instr).all
      (fun i => i.wf defaultConfig == false) = true ∧
    ([.frameStart 9 [] 255, .frameRestart 9 [] 255, .fragment [1] 255, .chunk [] 255, .validate [] 255] : List Instr).all
      (fun i => i.wf defaultConfig) = true := by decide

theorem test_wf_accepts :
    (Instr.frameStart 9 [2, 0] 0).wf defaultConfig = true ∧ (Instr.frameStart 2 [2, 0] 0).wf upperCfg = true ∧
    (Instr.fragment [1] 0).wf (smallCfg 9 1) = true ∧ (Instr.unrecognized [0x55, 0xAA, 0xEB]).wf defaultConfig = true := by
  decide

theorem test_fits_state :
    (Instr.fragment [1] 0).fitsState .idle = false ∧ (Instr.frameStart 9 [] 0).fitsState .assembling = false := by decide

/-! ### Decoding: words written out from the formats -/

/-- T-CLS-1. -/
theorem test_decode_empty : decode .exact .assembling (.chunk [] 3) = .empty ∧ decode .upperFree .idle (.chunk [] 3) = .empty := by
  decide

/-- T-CLS-2, T-CLS-6: count 9 and, under the other mask, count 15. -/
theorem test_decode_frameStart :
    decode .exact .idle (.chunk [0x55, 0xAA, 0xEB, 0x90] 3) = .frameStart 9 [] 3 ∧
    decode .upperFree .idle (.chunk [0x55, 0xAA, 0xEB, 0xF0] 3) = .frameStart 15 [] 3 := by decide

/-- T-CLS-3. -/
theorem test_decode_frameRestart :
    decode .exact .assembling (.chunk [0x55, 0xAA, 0xEB, 0x90, 0x01, 0x00] 3) = .frameRestart 9 [0x01, 0x00] 3 := by decide

/-- T-CLS-9, T-CLS-13: a short magic and a Modbus pattern are fragments while assembling. -/
theorem test_decode_fragment :
    decode .exact .assembling (.chunk [0x55, 0xAA, 0xEB] 3) = .fragment [0x55, 0xAA, 0xEB] 3 ∧
    decode .exact .assembling (.chunk rspBytes 3) = .fragment rspBytes 3 := by decide

/-- T-CLS-11, with every field at a value of its own. -/
theorem test_decode_mbWriteReq :
    decode .exact .idle (.chunk reqBytes 3) = .mbWriteReq 0x01 0x161E 0x0001 0x02 0x00 0x00 0xD2 0x2F ∧
    decode .exact .idle (.chunk [0x0A, 0x10, 0x12, 0x34, 0x56, 0x78, 0x9A, 0xB0, 0xB1, 0xB2, 0xB3] 3) =
      .mbWriteReq 0x0A 0x1234 0x5678 0x9A 0xB0 0xB1 0xB2 0xB3 := by decide

/-- T-CLS-12, T-CLS-17. -/
theorem test_decode_mbWriteRsp :
    decode .exact .idle (.chunk rspBytes 3) = .mbWriteRsp 0x01 0x161E 0x0001 0x6587 ∧
    decode .exact .idle (.chunk [0xFF, 0x10, 0xFF, 0xFF, 0xFF, 0xFF, 0xFF, 0xFF] 3) =
      .mbWriteRsp 0xFF 0xFFFF 0xFFFF 0xFFFF := by decide

/-- T-CLS-4, T-CLS-7, T-CLS-8, T-CLS-10, T-CLS-14 to T-CLS-16. -/
theorem test_decode_unrecognized :
    ([[0x55, 0xAA, 0xEB, 0x20, 0x02, 0x00], [0x55, 0xAA, 0xEB, 0x91, 0x02, 0x00], [0x55, 0xAA, 0xEB],
      [0x00, 0x55, 0xAA, 0xEB, 0x90], [0x01, 0x03, 0x00, 0x00, 0x00, 0x01, 0x84, 0x0A],
      [0x01, 0x06, 0x16, 0x1E, 0x00, 0x01, 0x02, 0x00, 0x00, 0xD2, 0x2F],
      [0x01, 0x10, 0x16, 0x1E, 0x00, 0x01, 0x02, 0x00, 0x00, 0xD2]] : List Buffer).all
      (fun c => decode .exact .idle (.chunk c 3) == .unrecognized c) = true := by decide

/-- R86: a direct operation is itself; a chunk never decodes to `CHUNK`. -/
theorem test_decode_direct :
    decode .exact .assembling (.crc16 [1] 1) = .crc16 [1] 1 ∧ decode .exact .assembling (.csum [1]) = .csum [1] ∧
    decode .exact .assembling (.validate [1] 2) = .validate [1] 2 ∧ decode .exact .assembling .reset = .reset ∧
    decode .exact .assembling .status = .status := by decide

/-- The matching row of a table word: the magic (`55 AA EB 90` in bits 31:24 downward), the Modbus request, no bits. -/
theorem test_table_words :
    decodeTableWord 32 0x55AAEB90 = some (.frameStart 9 [0, 0, 0, 0, 0, 0, 0] 0) ∧
    decodeTableWord 32 0x00100000 = some (.mbWriteReq 0 0 0 0 0 0 0 0) ∧ decodeTableWord 0 0 = some .empty ∧
    decodeTableWord 32 0 = some (.unrecognized (List.replicate 11 0)) := by decide

/-- A table word is run by the very next step from reset. -/
theorem test_withFetchWord :
    shown (step (State.reset.withFetchWord 32 0x55AAEB90)) = some ((.assembling, 9, 11), []) ∧
    shown (step (State.reset.withFetchWord 32 0x01020304)) =
      some ((.idle, 0, 0), [.unrecognized ([0x01, 0x02, 0x03, 0x04] ++ List.replicate 7 0)]) := by decide

/-! ### One step each -/

/-- T-RA-3, T-RA-8. -/
theorem test_empty :
    after (exec .empty (assembling defaultConfig 9 [0x55, 0xAA, 0xEB, 0x90, 0x02, 0x00])) =
      some (assembling defaultConfig 9 [0x55, 0xAA, 0xEB, 0x90, 0x02, 0x00]) ∧
    after (exec .empty State.reset) = some State.reset := ⟨rfl, rfl⟩

/-- T-RA-1. -/
theorem test_frameStart :
    after (exec (.frameStart 9 [0x02, 0x00] 5) State.reset) =
      some (assembling defaultConfig 9 [0x55, 0xAA, 0xEB, 0x90, 0x02, 0x00]) := rfl

/-- T-RA-9: `N = 0` completes at once. -/
theorem test_frameStart_zero :
    shown (exec (.frameStart 0 [] 5) (State.resetWith upperCfg)) =
      some ((.idle, 0, 0), [.frameEmitted [0x55, 0xAA, 0xEB, 0x00],
        .frameRejected .frameTooShort [0x55, 0xAA, 0xEB, 0x00]]) := by decide +kernel

/-- T-RA-6. -/
theorem test_frameRestart :
    after (exec (.frameRestart 9 [0x01, 0x00] 5)
        (assembling defaultConfig 8 [0x55, 0xAA, 0xEB, 0x90, 0x02, 0x00, 0x11, 0x22, 0x33, 0x44])) =
      some { assembling defaultConfig 9 [0x55, 0xAA, 0xEB, 0x90, 0x01, 0x00] with
        events := [.assemblyAbandoned [0x55, 0xAA, 0xEB, 0x90, 0x02, 0x00, 0x11, 0x22, 0x33, 0x44]] } := rfl

/-- T-RA-11: three events from one operation. -/
theorem test_frameRestart_zero :
    let frame : Buffer := [0x55, 0xAA, 0xEB, 0x00, 0x03, 0x00] ++ List.replicate 293 0 ++ [0xED]
    shown (exec (.frameRestart 0 (frame.drop 4) 9) (assembling upperCfg 1 [0x55, 0xAA, 0xEB, 0x10, 0x01, 0x00])) =
      some ((.idle, 0, 0), [.assemblyAbandoned [0x55, 0xAA, 0xEB, 0x10, 0x01, 0x00], .frameEmitted frame,
        .frameValid frame .deviceInfo .master 0]) := by decide +kernel

/-- T-RA-2. -/
theorem test_fragment :
    after (exec (.fragment [0xAB] 5) (assembling defaultConfig 9 [0x55, 0xAA, 0xEB, 0x90, 0x02, 0x00])) =
      some (assembling defaultConfig 8 [0x55, 0xAA, 0xEB, 0x90, 0x02, 0x00, 0xAB]) := rfl

/-- T-RA-4: the last fragment of a whole frame. -/
theorem test_fragment_last :
    shown (exec (.fragment (List.replicate 29 0 ++ [0x7C]) 5)
        (assembling defaultConfig 1 ([0x55, 0xAA, 0xEB, 0x90, 0x02, 0x00] ++ List.replicate 264 0))) =
      some ((.idle, 0, 0), [.frameEmitted (frame300 2 0 0x7C), .frameValid (frame300 2 0 0x7C) .state .master 0]) := by
  decide +kernel

/-- T-MB-1. -/
theorem test_mbWriteReq :
    view (exec (.mbWriteReq 0x01 0x161E 0x0001 0x02 0x00 0x00 0xD2 0x2F) State.reset) =
      some (.idle, 0, [], [.modbusExchange {
        kind := .request, raw := reqBytes, unit := 1, addr := 0x161E, qty := 1, wbc := some 2, data := some [0, 0],
        crcField := some 0xD22F, crcCalc := some 0xD22F, crcOk := true, category := .configData }], .nothing) := by
  decide +kernel

/-- T-MB-13: `wbc = 255` is out of reach. -/
theorem test_mbWriteReq_out_of_reach :
    view (exec (.mbWriteReq 0x01 0x161E 0x0001 0xFF 0x00 0x00 0xD2 0x2F) State.reset) =
      some (.idle, 0, [], [.modbusExchange {
        kind := .request, raw := [0x01, 0x10, 0x16, 0x1E, 0x00, 0x01, 0xFF, 0x00, 0x00, 0xD2, 0x2F], unit := 1,
        addr := 0x161E, qty := 1, wbc := some 255, data := none, crcField := none, crcCalc := none, crcOk := false,
        category := .configData }], .nothing) := by
  decide +kernel

/-- T-MB-9, T-MB-10: the CRC field's place follows `wbc`. -/
theorem test_mbWriteReq_short_data :
    (requestExchange defaultConfig 1 0x161E 1 0 0x47 0x2B 0 0).crcField = some 0x472B ∧
    (requestExchange defaultConfig 1 0x161E 1 0 0x47 0x2B 0 0).crcOk = true ∧
    (requestExchange defaultConfig 1 0x161E 1 1 0 0x6A 0xA2 0).data = some [0] ∧
    (requestExchange defaultConfig 1 0x161E 1 1 0 0x6A 0xA2 0).crcCalc = some 0x6AA2 ∧
    (requestExchange defaultConfig 1 0x161E 1 1 0 0x6A 0xA2 0).crcOk = true := by decide +kernel

/-- T-MB-2. -/
theorem test_mbWriteRsp :
    view (exec (.mbWriteRsp 0x01 0x161E 0x0001 0x6587) State.reset) =
      some (.idle, 0, [], [.modbusExchange {
        kind := .response, raw := rspBytes, unit := 1, addr := 0x161E, qty := 1, wbc := none, data := none,
        crcField := some 0x6587, crcCalc := some 0x6587, crcOk := true, category := .configData }], .nothing) := by
  decide +kernel

/-- T-MB-8, T-MB-4, T-MB-6. -/
theorem test_mbWriteRsp_fields :
    (responseExchange defaultConfig 1 0x161E 1 0x6586).crcOk = false ∧
    (responseExchange defaultConfig 2 0x1620 1 0x0478).crcOk = true ∧
    (responseExchange defaultConfig 2 0x1620 1 0x0478).category = .stateData ∧
    (responseExchange defaultConfig 3 0x1000 1 0x04EB).crcOk = true ∧
    (responseExchange defaultConfig 3 0x1000 1 0x04EB).category = .uncategorized := by decide +kernel

/-- T-RA-7. -/
theorem test_unrecognized :
    after (exec (.unrecognized [0xDE, 0xAD, 0xBE, 0xEF]) State.reset) =
      some { State.reset with events := [.unrecognized [0xDE, 0xAD, 0xBE, 0xEF]] } := rfl

/-- P2, third and fifth chunk: a magic chunk restarts, a Modbus chunk is swallowed. -/
theorem test_chunk :
    shown (exec (.chunk rspBytes 0) (assembling defaultConfig 9 [0x55, 0xAA, 0xEB, 0x90, 0x01, 0x00])) =
      some ((.assembling, 8, 14), []) ∧
    shown (exec (.chunk [0x55, 0xAA, 0xEB, 0x90] 0) (assembling defaultConfig 8 [0x55, 0xAA, 0xEB, 0x90, 0x22])) =
      some ((.assembling, 9, 4), [.assemblyAbandoned [0x55, 0xAA, 0xEB, 0x90, 0x22]]) := by decide +kernel

/-- T-CRC-1 to T-CRC-14, as far as they have a value. -/
theorem test_crc16_values :
    ([([], 0xFFFF), ([0x00], 0xBF40), ([0x00, 0x00], 0x01B0), (List.replicate 6 0, 0x001B), (List.replicate 9 0, 0x0AF0),
      ([0xFF], 0xFF00), ([0x01], 0x7E80), ([0x31, 0x32, 0x33, 0x34, 0x35, 0x36, 0x37, 0x38, 0x39], 0x374B),
      ([0x01, 0x03, 0x00, 0x00, 0x00, 0x01], 0x840A), ([0x01, 0x10, 0x16, 0x1E, 0x00, 0x01], 0x6587), (rspBytes, 0x0000),
      ([0x01, 0x10, 0x16, 0x1E, 0x00, 0x01, 0x87, 0x65], 0xC8E9), ([0xFF, 0xFF], 0x0000)] : List (Buffer × Word16)).all
      (fun v => (crc16 defaultConfig v.1 v.1.length).toOption == some v.2) = true := by decide +kernel

/-- T-CRC-12, T-CRC-16: `length` below and above the buffer's. -/
theorem test_crc16_length :
    (after (exec (.crc16 rspBytes 6) State.reset)).map State.result = some (.crc 0x6587) ∧
    view (exec (.crc16 [0x01, 0x02] 3) State.reset) = some (.idle, 0, [], [], .outOfRange ⟨[0x01, 0x02], 3⟩) := by
  decide +kernel

/-- T-SUM-2, T-SUM-4, T-SUM-8, T-SUM-10, T-SUM-11. -/
theorem test_csum_values :
    ([(List.replicate 300 0xFF, 0xD5), (frame300 2 0 0, 0x7C), (List.replicate 298 0 ++ [0x01, 0xEE], 0x01),
      ((List.range 300).map (BitVec.ofNat 8), 0x07), (frame300 2 0 0 ++ List.replicate 100 0xA5, 0x7C)]
      : List (Buffer × Byte)).all (fun v => (csum v.1).toOption == some v.2) = true := by decide +kernel

/-- T-SUM-5. -/
theorem test_csum_short :
    view (exec (.csum (List.replicate 299 0)) State.reset) =
      some (.idle, 0, [], [], .outOfRange ⟨List.replicate 299 0, 299⟩) := by decide +kernel

/-- T-VAL-1 to T-VAL-3, T-VAL-7, T-VAL-12. -/
theorem test_validate_valid :
    validation (frame300 2 0 0x7C) 5 = .frameValid (frame300 2 0 0x7C) .state .master 0 ∧
    validation (frame300 1 1 0x7C) 7 = .frameValid (frame300 1 1 0x7C) .config .slave 7 ∧
    validation (frame300 3 2 0x7F) 0 = .frameValid (frame300 3 2 0x7F) .deviceInfo .slave 0 ∧
    validation (frame300 2 0 0x7C ++ List.replicate 100 0) 3 =
      .frameValid (frame300 2 0 0x7C ++ List.replicate 100 0) .state .master 0 ∧
    validation ([0, 0, 0, 0, 2, 0] ++ List.replicate 293 0 ++ [2]) 0 =
      .frameValid ([0, 0, 0, 0, 2, 0] ++ List.replicate 293 0 ++ [2]) .state .master 0 := by decide +kernel

/-- T-VAL-4 to T-VAL-6, T-VAL-8, T-VAL-10, T-VAL-11. -/
theorem test_validate_rejected :
    validation (frame300 2 0 0x7D) 5 = .frameRejected (.checksumMismatch 0x7C 0x7D) (frame300 2 0 0x7D) ∧
    validation ((frame300 2 0 0x7C).take 299) 5 = .frameRejected .frameTooShort ((frame300 2 0 0x7C).take 299) ∧
    validation (frame300 9 0 0x83) 0 = .frameRejected (.unknownRecordType 9) (frame300 9 0 0x83) ∧
    validation (List.replicate 300 0) 3 = .frameRejected (.unknownRecordType 0) (List.replicate 300 0) ∧
    validation (frame300 9 0 0) 0 = .frameRejected (.checksumMismatch 0x83 0) (frame300 9 0 0) ∧
    validation [] 0 = .frameRejected .frameTooShort [] := by decide +kernel

/-- T-RA-12, T-SYS-3. -/
theorem test_reset :
    after (exec .reset (assembling defaultConfig 4 (List.replicate 90 0))) = some State.reset := rfl

/-- T-SYS-1, T-SYS-2. -/
theorem test_status :
    (after (exec .status State.reset)).map State.result = some (.status 0 0 0) ∧
    (after (exec .status (assembling defaultConfig 9 [0x55, 0xAA, 0xEB, 0x90, 0x02, 0x00]))).map State.result =
      some (.status 1 9 6) := by decide +kernel

/-- R21: `Idle` = 0, `Assembling` = 1. -/
theorem test_fsm_bit : Fsm.idle.bit = 0 ∧ Fsm.assembling.bit = 1 := by decide

/-- R1: the identity, and R9: the default widths. -/
theorem test_identity :
    identity.name = "jkEssMonitor-framing-block" ∧ identity.sourceRevision = "v7" ∧
    defaultConfig.remWidth.val = 4 ∧ defaultConfig.devIdWidth = 8 := by decide

/-- R25, R34: in a build with other widths the counts are the same and an identifier above 255 is reported. -/
theorem test_wide_build :
    shown (exec (.frameStart 15 [] 65535) (State.resetWith wideCfg)) = some ((.assembling, 15, 4), []) ∧
    shown (exec (.fragment [1] 65535) (assembling wideCfg 15 (frameWire 15 []))) = some ((.assembling, 14, 5), []) ∧
    shown (exec (.validate (frame300 1 1 0x7C) 300) (State.resetWith wideCfg)) =
      some ((.idle, 0, 0), [.frameValid (frame300 1 1 0x7C) .config .slave 300]) := by decide +kernel

/-- R87, R88: lines of a program; `MBRSP 01 161E 0001` is T-MB-2's chunk, and P3 writes T-MB-1 as an `MBREQ`. -/
theorem test_trace :
    parseProgram defaultConfig "RESET\nCHUNK 55 AA EB 90 00*2 ctx=5 ; a start\nCHUNK\nSTATUS" =
      some [.reset, .chunk [0x55, 0xAA, 0xEB, 0x90, 0x00, 0x00] 5, .chunk [] 0, .status] ∧
    parseProgram defaultConfig "SEND 01 02 03 SPLIT 1,2\nCRC16 01 02 len=3\nCRC16 01 02\nCSUM 0F*0" =
      some [.chunk [1] 0, .chunk [2, 3] 0, .crc16 [1, 2] 3, .crc16 [1, 2] 2, .csum []] ∧
    parseProgram defaultConfig "MBREQ 01 161E 0001 00 00\nMBRSP 01 161E 0001" =
      some [.chunk reqBytes 0, .chunk rspBytes 0] ∧
    parseProgram defaultConfig "SEND 01 02 03 SPLIT 1,1" = none ∧
    parseProgram defaultConfig "CHUNK 01 ctx=256" = none ∧
    parseProgram wideCfg "CHUNK 01 ctx=256" = some [.chunk [1] 256] ∧ parseProgram defaultConfig "NOP" = none := by
  decide +kernel

/-! ### Witnesses: a state and operands that meet the hypotheses of each statement together -/

/-- A start under the default mask. -/
def startWire : Buffer := frameWire 9 [0x02, 0x00]

theorem startWire_eq : startWire = [0x55, 0xAA, 0xEB, 0x90, 0x02, 0x00] := by decide

theorem witness_DecodeOfEncode :
    (Instr.frameStart 9 [2] 5).wf defaultConfig = true ∧ (Instr.frameStart 9 [2] 5).fitsState .idle = true ∧
    (Instr.fragment [1] 5).wf (smallCfg 9 1) = true ∧ (Instr.fragment [1] 5).fitsState .assembling = true ∧
    (Instr.unrecognized [0]).wf defaultConfig = true ∧ (Instr.unrecognized [0]).fitsState .idle = true ∧
    ∀ bytes ctx, Instr.frameStart 9 [2] 5 ≠ .chunk bytes ctx := by
  refine ⟨by decide, by decide, by decide, by decide, by decide, by decide, by simp⟩

/-- A chunk as long as the bound, under the last context that fits. -/
theorem witness_DecodedIsWellFormed :
    withinBound (smallCfg 9 2).maxChunkLen [1, 2].length = true ∧
    (Operation.chunk [1, 2] 255).contextFits (smallCfg 9 2).devIdWidth = true ∧
    (Operation.validate [1, 2] 255).contextFits (smallCfg 9 2).devIdWidth = true := by decide

theorem witness_FragmentCountField :
    readByte startWire 3 = some 0x90 ∧ isMagic .exact startWire = true ∧ readByte [0, 0, 0, 0xFF] 3 = some 0xFF := by decide

theorem witness_StepRunsDecodedOperation : (given State.reset [.status]).input = .status :: [] := rfl

theorem witness_NothingPresentedNothingChanges :
    State.reset.input = [] ∧ (assembling defaultConfig 9 startWire).input = [] := ⟨rfl, rfl⟩

theorem witness_StepKeepsInvariant :
    (given (assembling defaultConfig 1 startWire) [.chunk [1] 0]).Inv ∧
    (∃ t, step (given (assembling defaultConfig 1 startWire) [.chunk [1] 0]) = .next t) ∧
    (given State.reset [.chunk startWire 0]).Inv ∧ ∃ t, step (given State.reset [.chunk startWire 0]) = .next t :=
  ⟨by decide, ⟨_, rfl⟩, by decide, ⟨_, rfl⟩⟩

theorem witness_ExactMaskSharpensInvariant :
    (assembling defaultConfig 1 startWire).Inv ∧ (assembling defaultConfig 9 startWire).Inv ∧
    (assembling defaultConfig 9 startWire).cfg.magic3Mask = .exact ∧ (assembling defaultConfig 9 startWire).fsm = .assembling := by
  decide

/-- Both clauses at the bound: nine bytes in one chunk, then a second chunk of nine. -/
theorem witness_AssemblyLengthBounded :
    let s := given (assembling (smallCfg 99 9) 9 (startWire ++ [1, 2, 3])) [.chunk (List.replicate 9 7) 0]
    s.Inv ∧ s.LengthBounded ∧ (∃ t, step s = .next t) ∧ s.cfg.maxChunkLen = some 9 :=
  ⟨by decide, by decide, ⟨_, rfl⟩, rfl⟩

/-- The second state awaits the largest number its register of four bits holds. -/
theorem witness_StepKeepsCapacity :
    let s := given (assembling (smallCfg 7 9) 9 startWire) [.chunk [1] 0]
    let u := given (assembling upperCfg 15 (frameWire 15 [])) [.chunk [1] 0]
    withinBound s.cfg.accCapacity s.acc.length = true ∧ (∃ t, step s = .next t) ∧ u.CountFits ∧ ∃ t, step u = .next t :=
  ⟨by decide, ⟨_, rfl⟩, by decide, ⟨_, rfl⟩⟩

/-- For `UnboundedBuildNeverStops` and `ChunkCompletes`: the last context that fits, and nothing presented. -/
theorem witness_Unbounded :
    Unbounded State.reset.cfg ∧ Unbounded (assembling upperCfg 1 startWire).cfg ∧
    (given State.reset [.chunk startWire 255]).input.head?.all (Operation.contextFits State.reset.cfg.devIdWidth) = true ∧
    State.reset.input.head?.all (Operation.contextFits State.reset.cfg.devIdWidth) = true ∧
    fitsDevId State.reset.cfg.devIdWidth 255 = true :=
  ⟨⟨rfl, rfl⟩, ⟨rfl, rfl⟩, by decide, by decide, by decide⟩

/-- Each clause: too long by one byte, past the capacity by one byte, just within both, a context too wide by one and just
within its width, and the classes that take on no context. -/
theorem witness_RefusedExactlyOverCapacity :
    reason (step (given (assembling (smallCfg 9 1) 9 startWire) [.chunk [1, 2] 0])) = some .chunkTooLong ∧
    reason (step (given (assembling (smallCfg 6 1) 9 startWire) [.chunk [1] 0])) = some .accCapacityExceeded ∧
    (after (step (given (assembling (smallCfg 7 1) 9 startWire) [.chunk [1] 0]))).isSome = true ∧
    reason (step (given (State.resetWith (smallCfg 5 6)) [.chunk startWire 0])) = some .accCapacityExceeded ∧
    (after (step (given (State.resetWith (smallCfg 6 6)) [.chunk startWire 0]))).isSome = true ∧
    reason (step (given (State.resetWith (smallCfg 6 6)) [.chunk startWire 256])) = some .contextTooWide ∧
    (after (step (given (State.resetWith (smallCfg 6 6)) [.chunk startWire 255]))).isSome = true ∧
    reason (step (given (assembling (smallCfg 6 1) 9 startWire) [.chunk [1] 256])) = some .contextTooWide ∧
    (after (step (given State.reset [.chunk rspBytes 256]))).isSome = true ∧
    reason (step (given State.reset [.validate [1] 256])) = some .contextTooWide ∧
    (after (step (given State.reset [.validate [1] 255]))).isSome = true ∧
    (after (step (given State.reset [.csum [1]]))).isSome = true := by decide +kernel

/-- A step that answers a next state, with an event: for `StepNeverWritesConfig`, `StepConsumesOldest` and the other statements
about every step. -/
theorem witness_step_next :
    ∃ t, step (given State.reset [.chunk [0xDE, 0xAD] 0]) = .next t ∧ t.events = [.unrecognized [0xDE, 0xAD]] ∧
      t.cfg = defaultConfig ∧ t.input = [] := ⟨_, rfl, rfl, rfl, rfl⟩

/-- A step with three events, two error kinds and a finished frame, from a restart with count 0: for
`StepAppendsAtMostThreeEvents` and `AtMostOneErrorKind`. -/
theorem witness_StepAppendsAtMostThreeEvents :
    ∃ t, step (given (assembling upperCfg 1 (frameWire 1 [])) [.chunk (frameWire 0 []) 0]) = .next t ∧
      t.events = [.assemblyAbandoned (frameWire 1 []), .frameEmitted (frameWire 0 []),
        .frameRejected .frameTooShort (frameWire 0 [])] ∧
      t.events.filterMap Event.errorKind = [.assemblyAbandoned, .frameTooShort] := ⟨_, rfl, rfl, rfl⟩

/-- A step that reports the largest identifier of eight bits. -/
theorem witness_ReportedIdentifierFitsWidth :
    view (step (given State.reset [.validate (frame300 1 1 0x7C) 255])) =
      some (.idle, 0, [], [.frameValid (frame300 1 1 0x7C) .config .slave 255], .nothing) := by decide +kernel

theorem witness_AccOnlyAppendedOrCleared :
    ∃ t, step (given (assembling defaultConfig 1 startWire) [.chunk [1] 0]) = .next t ∧
      .frameEmitted (startWire ++ [1]) ∈ t.events.drop 0 := ⟨_, rfl, List.mem_cons_self ..⟩

/-- For `ChunkNeverOutOfRange` and `ContextReachesOnlySlaveIdentifier`: one chunk in one state under two contexts. -/
theorem witness_exec_chunk_next :
    (∃ t, exec (.chunk [0xAB] 1) (assembling defaultConfig 1 startWire) = .next t) ∧
    (∃ u, exec (.chunk [0xAB] 2) (assembling defaultConfig 1 startWire) = .next u) ∧
    ∃ t, exec (.chunk [0xAB] 1) State.reset = .next t := ⟨⟨_, rfl⟩, ⟨_, rfl⟩, ⟨_, rfl⟩⟩

/-- Each of the three exits from an assembly. -/
theorem witness_OnlyExitsFromAssembling :
    (assembling defaultConfig 9 startWire).CountFits ∧ (assembling upperCfg 1 (frameWire 1 [])).CountFits ∧
    (∃ t, step (given (assembling defaultConfig 9 startWire) [.reset]) = .next t ∧ t.fsm = .idle) ∧
    (∃ t, step (given (assembling defaultConfig 1 startWire) [.chunk [1] 0]) = .next t ∧ t.fsm = .idle) ∧
    ∃ t, step (given (assembling upperCfg 1 (frameWire 1 [])) [.chunk (frameWire 0 []) 0]) = .next t ∧ t.fsm = .idle :=
  ⟨by decide, by decide, ⟨_, rfl, rfl⟩, ⟨_, rfl, rfl⟩, ⟨_, rfl, rfl⟩⟩

theorem witness_ClassifierSilentWhileAssembling :
    (assembling defaultConfig 2 startWire).fsm = .assembling ∧
    (∃ t, exec (.chunk rspBytes 0) (assembling defaultConfig 2 startWire) = .next t) ∧ rspBytes ≠ [] ∧
    isMagic .exact rspBytes = false ∧ 2 ≤ (assembling defaultConfig 2 startWire).rem ∧
    (assembling defaultConfig 2 startWire).CountFits :=
  ⟨rfl, ⟨_, rfl⟩, by decide, by decide, by decide, by decide⟩

theorem witness_IdleNonFrameTouchesNoRegister :
    State.reset.fsm = .idle ∧ isMagic State.reset.cfg.magic3Mask [0x55, 0xAA, 0xEB] = false ∧
    ∃ t, exec (.chunk [0x55, 0xAA, 0xEB] 0) State.reset = .next t := ⟨rfl, by decide, ⟨_, rfl⟩⟩

/-- A count of 1 with no middle chunk, and a count of 2 with one (P4). -/
theorem witness_AssemblyYieldsConcatenation :
    admitsCount upperCfg.magic3Mask 1 = true ∧ ([] : List (Buffer × DevId)).length + 1 = (1 : Nibble).toNat ∧
    admitsCount upperCfg.magic3Mask 2 = true ∧ [(([0xB1] : Buffer), (2 : DevId))].length + 1 = (2 : Nibble).toNat ∧
    fitsDevId upperCfg.devIdWidth 1 = true ∧
    (∀ f ∈ [(([0xB1] : Buffer), (2 : DevId))] ++ [([0xC1], 3)],
      f.1 ≠ [] ∧ isMagic upperCfg.magic3Mask f.1 = false ∧ fitsDevId upperCfg.devIdWidth f.2 = true) ∧
    (State.resetWith upperCfg).fsm = .idle ∧ Unbounded (State.resetWith upperCfg).cfg ∧
    (given (State.resetWith upperCfg) [.chunk (frameWire 2 [0x02]) 1, .chunk [0xB1] 2, .chunk [0xC1] 3]).input =
      .chunk (frameWire 2 [0x02]) 1 ::
        (([(([0xB1] : Buffer), (2 : DevId))] ++ [([0xC1], 3)]).map (fun f : Buffer × DevId => Operation.chunk f.1 f.2) ++ []) :=
  ⟨by decide, by decide, by decide, by decide, by decide, by decide, rfl, ⟨rfl, rfl⟩, rfl⟩

/-- Every row of the table, each with its condition at a boundary value. -/
theorem witness_TransitionTable :
    (State.resetWith upperCfg).Inv ∧ (assembling upperCfg 1 (frameWire 2 [])).Inv ∧ (assembling upperCfg 2 (frameWire 2 [])).Inv ∧
    Unbounded upperCfg ∧ fitsDevId upperCfg.devIdWidth 255 = true ∧
    (State.resetWith upperCfg).classOf [] = .empty ∧
    (State.resetWith upperCfg).classOf (frameWire 1 []) = .frameStart ∧ fragmentCount (frameWire 1 []) = some 1 ∧
    (State.resetWith upperCfg).classOf (frameWire 0 []) = .frameStart ∧ fragmentCount (frameWire 0 []) = some 0 ∧
    (State.resetWith upperCfg).classOf reqBytes = .mbWriteReq ∧ (State.resetWith upperCfg).classOf rspBytes = .mbWriteRsp ∧
    (State.resetWith upperCfg).classOf [0] = .unrecognized ∧
    (assembling upperCfg 2 (frameWire 2 [])).classOf [0] = .fragment ∧
    2 ≤ (assembling upperCfg 2 (frameWire 2 [])).rem ∧ (assembling upperCfg 1 (frameWire 2 [])).rem = 1 ∧
    (assembling upperCfg 1 (frameWire 2 [])).classOf (frameWire 15 []) = .frameRestart ∧
    (assembling upperCfg 1 (frameWire 2 [])).classOf (frameWire 0 []) = .frameRestart := by decide

theorem witness_FrameStartStoresChunk :
    State.reset.fsm = .idle ∧ fitsDevId (smallCfg 6 6).devIdWidth 255 = true ∧
    admitsCount State.reset.cfg.magic3Mask 9 = true ∧ admitsCount upperCfg.magic3Mask 0 = true ∧
    withinBound (smallCfg 6 6).maxChunkLen startWire.length = true ∧
    withinBound (smallCfg 6 6).accCapacity startWire.length = true := by decide

theorem witness_FrameRestartAbandonsAssembly :
    let s := assembling (smallCfg 6 6) 1 startWire
    s.fsm = .assembling ∧ fitsDevId s.cfg.devIdWidth 255 = true ∧ admitsCount s.cfg.magic3Mask 9 = true ∧ admitsCount upperCfg.magic3Mask 0 = true ∧
    withinBound s.cfg.maxChunkLen (frameWire 9 [1, 0]).length = true ∧
    withinBound s.cfg.accCapacity (frameWire 9 [1, 0]).length = true := by decide

theorem witness_FragmentAppendsAndCounts :
    let s := assembling (smallCfg 7 1) 1 startWire
    s.fsm = .assembling ∧ 1 ≤ s.rem ∧ s.CountFits ∧ fitsDevId s.cfg.devIdWidth 255 = true ∧ ([0x55] : Buffer) ≠ [] ∧ isMagic s.cfg.magic3Mask [0x55] = false ∧
    withinBound s.cfg.maxChunkLen [0x55].length = true ∧
    withinBound s.cfg.accCapacity (s.acc.length + [0x55].length) = true := by decide

theorem witness_UnrecognizedReportsChunk :
    let raw : Buffer := [0x01, 0x03, 0x00, 0x00, 0x00, 0x01, 0x84, 0x0A]
    State.reset.fsm = .idle ∧ raw ≠ [] ∧ isMagic State.reset.cfg.magic3Mask raw = false ∧
    ¬ ((raw.length = 11 ∨ raw.length = 8) ∧ readByte raw 1 = some 0x10) ∧
    withinBound State.reset.cfg.maxChunkLen raw.length = true := by decide

theorem witness_RequestInReachChecksCrc :
    (State.resetWith (smallCfg 11 11)).fsm = .idle ∧ (2 : Byte).toNat ≤ 2 ∧ (1 : Byte).toNat ≤ 2 ∧ (0 : Byte).toNat ≤ 2 ∧
    withinBound (smallCfg 11 11).maxChunkLen 11 = true := by decide

theorem witness_RequestOutOfReachFailsCheck :
    State.reset.fsm = .idle ∧ 3 ≤ (3 : Byte).toNat ∧ 3 ≤ (255 : Byte).toNat ∧
    withinBound State.reset.cfg.maxChunkLen 11 = true := by decide

theorem witness_ResponseChecksCrc :
    (State.resetWith (smallCfg 8 8)).fsm = .idle ∧ withinBound (smallCfg 8 8).maxChunkLen 8 = true := by decide

theorem witness_CategoryOfAddress :
    (0x161F : Word16) ≠ 0x161E ∧ (0x161F : Word16) ≠ 0x1620 ∧ (0x1621 : Word16) ≠ 0x161E ∧ (0x1621 : Word16) ≠ 0x1620 := by
  decide

/-- `length` equal to the buffer's, 0, and one past it, and two buffers that agree as far as `length`: for
`CrcFoldsByteStep` and `CrcLengthAgainstBuffer`. -/
theorem witness_crc16_length :
    2 ≤ ([1, 2] : Buffer).length ∧ 0 ≤ ([] : Buffer).length ∧ ([1, 2] : Buffer).length < 3 ∧
    1 ≤ ([1, 3, 4] : Buffer).length ∧ ([1, 2] : Buffer).take 1 = ([1, 3, 4] : Buffer).take 1 := by decide

/-- Buffers of 300 and of 299 bytes, the two sides of the bound: for `ChecksumSumsWindow` and `ChecksumRejectsShort`. -/
theorem witness_csum_length :
    300 ≤ (List.replicate 300 (0 : Byte)).length ∧ (List.replicate 299 (0 : Byte)).length < 300 ∧
    ∃ t, exec (.chunk [0xAB] 1) State.reset = .next t := ⟨by decide +kernel, by decide +kernel, ⟨_, rfl⟩⟩

theorem witness_ValidateChecksInOrder :
    fitsDevId State.reset.cfg.devIdWidth 255 = true ∧
    (List.replicate 299 (0 : Byte)).length < 300 ∧ 300 ≤ (frame300 2 0 0x7C).length ∧
    readByte (frame300 2 0 0x7C) 299 = some 0x7C ∧ readByte (frame300 2 0 0x7C) 4 = some 2 ∧
    readByte (frame300 2 0 0x7C) 5 = some 0 ∧
    (0x7C : Byte).toNat = (((frame300 2 0 0x7C).take 299).map BitVec.toNat).sum % 256 := by decide +kernel

/-- A fragment handed to `exec` in `Idle`. -/
theorem witness_ClassOutsideItsStateRefused :
    (Instr.fragment [1] 0).cls = some .fragment ∧ (Instr.fragment [1] 0).wire = some [1] ∧
    withinBound State.reset.cfg.maxChunkLen [1].length = true ∧ State.reset.classOf [1] ≠ .fragment := by decide

theorem witness_CrcResidueIsZero :
    tableRead defaultConfig.hiTable 0 = 0 ∧ tableRead defaultConfig.loTable 0 = 0 := by decide +kernel

theorem witness_DefaultTablesComputeModbusCrc :
    upperCfg.hiTable = defaultConfig.hiTable ∧ upperCfg.loTable = defaultConfig.loTable := ⟨rfl, rfl⟩

/-- Two windows that differ in order alone, and the first and the last byte of a window. -/
theorem witness_ChecksumCoverage :
    ((List.replicate 298 (0 : Byte) ++ [1, 9]).take 299).Perm ((1 :: List.replicate 299 (0 : Byte)).take 299) ∧
    300 ≤ (List.replicate 298 (0 : Byte) ++ [1, 9]).length ∧ 300 ≤ (1 :: List.replicate 299 (0 : Byte)).length ∧
    readByte (1 :: List.replicate 299 (0 : Byte)) 0 = some 1 ∧
    readByte (1 :: List.replicate 299 (0 : Byte)) 298 = some 0 := by decide +kernel

theorem witness_FrameValidExactlyWhen :
    validation (frame300 1 255 0x7A) 0 = .frameValid (frame300 1 255 0x7A) .config .slave 0 := by decide +kernel

theorem witness_TrailingBytesUnread : 300 ≤ (frame300 2 0 0x7C).length := by decide +kernel

theorem witness_PseudoExchangesPassCheck : State.reset.fsm = .idle ∧ State.reset.cfg.maxChunkLen = none := ⟨rfl, rfl⟩

theorem witness_SendSplitsBytes :
    splitBytes [1, 2, 3] [0, 1, 2] = some [[], [1], [2, 3]] ∧ (splitBytes [1, 2, 3] [1, 3]).isSome = false := by decide

theorem witness_RecognitionByLengthAndFunctionCode :
    (reqBytes.length = 11 ∧ readByte reqBytes 1 = some 0x10) ∧ (rspBytes.length = 8 ∧ readByte rspBytes 1 = some 0x10) := by
  decide

end Sys2Proof.Tests
end

section
/-! PROOFS. `spec/20_memory.md` R54: how a step writes `acc`, and which frames it emits. -/

namespace Sys2Proof.Machine

/-- A buffer the block can hold after taking the chunk `bytes` on top of `acc`: the chunk at the end of `acc`, or a start
chunk alone, where `acc` was cleared first (R54). -/
def ChunkTaken (mask : Magic3Mask) (acc bytes buf : Buffer) : Prop :=
  buf = acc ++ bytes ∨ (buf = bytes ∧ isMagic mask bytes = true)

theorem ChunkTaken.of_append (mask : Magic3Mask) (acc bytes : Buffer) : ChunkTaken mask acc bytes (acc ++ bytes) := .inl rfl

theorem ChunkTaken.of_start {mask : Magic3Mask} {n : Nibble} (acc rest : Buffer) (h : admitsCount mask n = true) :
    ChunkTaken mask acc (frameWire n rest) (frameWire n rest) := .inr ⟨rfl, by simpa using h⟩

theorem frameEmitted_ne_validation (frame buf : Buffer) (ctx : DevId) : Event.frameEmitted frame ≠ validation buf ctx :=
  fun h => by simpa using congrArg Event.isFrameEmitted h

/-- What `CHUNK` leaves in `acc` (R54): an unfinished assembly holds the chunk, a finished one is cleared, and a chunk that
is none of an assembly's leaves `acc` as it was. -/
theorem execChunk_acc {s t : State} {bytes : Buffer} {ctx : DevId} (h : execChunk bytes ctx s = .next t) :
    t.acc = s.acc ∨ t.acc = [] ∨ ChunkTaken s.cfg.magic3Mask s.acc bytes t.acc := by
  obtain ⟨-, ⟨-, rfl⟩ | ⟨n, rest, rfl, hn, -, -, _, -, ⟨-, rfl⟩ | ⟨-, rfl⟩⟩ |
    ⟨-, -, -, -, -, ⟨-, rfl⟩ | ⟨-, rfl⟩⟩ | ⟨-, -, -, _, rfl, -⟩⟩ := execChunk_next_cases h
  case inl => exact .inl rfl
  case inr.inl.inl => exact .inr (.inl rfl)
  case inr.inl.inr => exact .inr (.inr (.of_start s.acc rest hn))
  case inr.inr.inl.inl => exact .inr (.inl rfl)
  case inr.inr.inl.inr => exact .inr (.inr (.of_append _ s.acc bytes))
  case inr.inr.inr => exact .inl rfl

/-- A frame that `CHUNK` emits is the whole buffer with the chunk taken (R54, R135). -/
theorem execChunk_frameEmitted {s t : State} {bytes frame : Buffer} {ctx : DevId} (h : execChunk bytes ctx s = .next t)
    (hf : .frameEmitted frame ∈ t.events.drop s.events.length) : ChunkTaken s.cfg.magic3Mask s.acc bytes frame := by
  obtain ⟨-, ⟨-, rfl⟩ | ⟨n, rest, rfl, hn, -, -, abandoned, hab, hstart⟩ |
    ⟨-, -, -, -, -, ⟨-, rfl⟩ | ⟨-, rfl⟩⟩ | ⟨-, -, -, e, rfl, he⟩⟩ := execChunk_next_cases h
  case inl => simp at hf
  case inr.inl =>
    have hnotAbandoned : .frameEmitted frame ∉ abandoned := by
      obtain ⟨-, rfl⟩ | ⟨-, rfl⟩ := hab <;> simp
    obtain ⟨-, rfl⟩ | ⟨-, rfl⟩ := hstart
    · have hframe : frame = frameWire n rest := by
        simpa [hnotAbandoned, frameEmitted_ne_validation] using hf
      exact hframe ▸ .of_start s.acc rest hn
    · simp [hnotAbandoned] at hf
  case inr.inr.inl.inl =>
    have hframe : frame = s.acc ++ bytes := by simpa [frameEmitted_ne_validation] using hf
    exact hframe ▸ .of_append _ s.acc bytes
  case inr.inr.inl.inr => simp at hf
  case inr.inr.inr => obtain ⟨_, rfl⟩ | rfl := he <;> simp at hf

/-- Settles O20: only a delivered chunk adds bytes to `acc` or emits a frame; every direct operation keeps `acc`, or, as
`RESET` does, clears it. -/
theorem accOnlyAppendedOrCleared : Obligations.AccOnlyAppendedOrCleared := by
  intro s t h
  obtain ⟨-, rfl⟩ | ⟨op, waiting, hin, hop⟩ := step_next_cases h
  · exact ⟨.inl rfl, by simp⟩
  · obtain ⟨bytes, ctx, rfl, hchunk⟩ | ⟨_, rfl, -⟩ | ⟨buf, ctx, -, -, rfl⟩ | ⟨-, rfl⟩ := hop
    case inl =>
      exact ⟨(execChunk_acc hchunk).imp_right (.imp_right fun hacc => ⟨bytes, ctx, waiting, hin, hacc⟩),
        fun _ hf => ⟨bytes, ctx, waiting, hin, execChunk_frameEmitted (s := { s with input := waiting }) hchunk hf⟩⟩
    case inr.inl => exact ⟨.inl rfl, by simp⟩
    case inr.inr.inl => exact ⟨.inl rfl, by simp [frameEmitted_ne_validation]⟩
    case inr.inr.inr => exact ⟨.inr (.inl rfl), by simp⟩

end Sys2Proof.Machine
end

section
/-! PROOFS. `spec/40_integrity_engines.md` R101, R110, R111: what a direct `CRC16` or `CSUM` answers, and where `OutOfRange`
cannot come from. -/

namespace Sys2Proof.Machine

/-! ### What the direct calls answer -/

/-- A direct `CRC16` writes the engine's answer and nothing else. -/
theorem exec_crc16 (s : State) (buffer : Buffer) (length : Nat) :
    exec (.crc16 buffer length) s = .next { s with result := crcResult (crc16 s.cfg buffer length) } := rfl

/-- A direct `CSUM` writes the engine's answer and nothing else. -/
theorem exec_csum (s : State) (buffer : Buffer) :
    exec (.csum buffer) s = .next { s with result := csumResult (csum buffer) } := rfl

theorem exec_crc16_of_le (s : State) {buffer : Buffer} {length : Nat} (h : length ≤ buffer.length) :
    exec (.crc16 buffer length) s = .next { s with result := .crc (crcRegs s.cfg (buffer.take length)).value } := by
  rw [exec_crc16, crc16_of_le s.cfg h, crcResult]

theorem exec_csum_of_le (s : State) {buffer : Buffer} (h : 300 ≤ buffer.length) :
    exec (.csum buffer) s = .next { s with result := .checksum (windowSum buffer) } := by
  rw [exec_csum, csum_of_le h, csumResult]

/-- The bound is 300, not the 299 bytes summed (R111). -/
theorem exec_csum_of_lt (s : State) {buffer : Buffer} (h : buffer.length < 300) :
    exec (.csum buffer) s = .next { s with result := .outOfRange ⟨buffer, buffer.length⟩ } := by
  rw [exec_csum, csum_of_lt h, csumResult]

/-- Whatever a `CHUNK` does, it returns nothing to its caller (R52, R223). -/
theorem execChunk_result {s t : State} {bytes : Buffer} {ctx : DevId} (h : execChunk bytes ctx s = .next t) :
    t.result = .nothing := by
  obtain ⟨-, ⟨-, rfl⟩ | ⟨_, _, -, -, -, -, _, -, ⟨-, rfl⟩ | ⟨-, rfl⟩⟩ |
    ⟨-, -, -, -, -, ⟨-, rfl⟩ | ⟨-, rfl⟩⟩ | ⟨-, -, -, _, rfl, -⟩⟩ := execChunk_next_cases h
  all_goals rfl

/-! ### The fold of the byte step on plain pairs -/

/-- The two CRC registers as the pair `(hi, lo)` of R101. -/
def CrcRegs.toPair (r : CrcRegs) : Byte × Byte := (r.hi, r.lo)

/-- Read as pairs, the registers run through the left fold of R101's step: `toPair` takes `crcStep` to it. -/
theorem foldl_pairStep_eq_crcRegs (cfg : Config) (bytes : Buffer) :
    bytes.foldl
      (fun (r : Byte × Byte) (b : Byte) =>
        (r.2 ^^^ tableRead cfg.hiTable (r.1 ^^^ b), tableRead cfg.loTable (r.1 ^^^ b))) (0xFF, 0xFF) =
      (crcRegs cfg bytes).toPair :=
  List.foldl_hom CrcRegs.toPair (init := crcSeed) fun _ _ => rfl

/-! ### The statements -/

/-- Settles O44: the fold over register pairs is the engine's fold, and its value is `hi * 256 + lo`. -/
theorem crcFoldsByteStep : Obligations.CrcFoldsByteStep := by
  intro s buffer length h
  refine ⟨_, exec_crc16_of_le s h, ?_⟩
  rw [foldl_pairStep_eq_crcRegs, CrcRegs.value_toNat]
  rfl

/-- Settles O46: the stepwise 8-bit sum of the window is the exact sum reduced once. -/
theorem checksumSumsWindow : Obligations.ChecksumSumsWindow := fun s buffer =>
  ⟨fun h => ⟨windowSum buffer, exec_csum_of_le s h, windowSum_toNat buffer⟩, exec_csum_of_lt s⟩

/-- Settles O47: a `CHUNK` returns nothing, so no `OutOfRange`, and the validator asks for 300 bytes before it sums. -/
theorem checksumRejectsShort : Obligations.ChecksumRejectsShort := by
  refine ⟨fun s _ h => exec_csum_of_lt s h, fun s t bytes ctx e h => ?_, fun _ ctx h => validation_short h ctx⟩
  have hnothing : t.result = .nothing := execChunk_result h
  simp [hnothing]

end Sys2Proof.Machine
end

section
/-! PROOFS. `spec/42_modbus_classifier.md` R161, R164: which chunks are exchanges, and the category of a write address. -/

namespace Sys2Proof.Machine

/-! ### Recognition -/

/-- With the function code at offset 1 a chunk cannot be magic (R80), so in `Idle` its length alone gives its class. -/
theorem classify_idle_of_functionCode {mask : Magic3Mask} {chunk : Buffer}
    (h : readByte chunk 1 = some mbFunctionCode) :
    classify mask .idle chunk =
      if chunk.length = 11 then .mbWriteReq else if chunk.length = 8 then .mbWriteRsp else .unrecognized := by
  have hne : chunk ≠ [] := by rintro rfl; simp [readByte] at h
  rw [classify_idle hne (isMagic_of_byte_one h)]
  simp only [h, and_true]

/-- Without the function code at offset 1 a chunk in `Idle` is empty, a start, or unrecognised, whatever its length. -/
theorem classify_idle_of_not_functionCode {mask : Magic3Mask} {chunk : Buffer}
    (h : readByte chunk 1 ≠ some mbFunctionCode) :
    classify mask .idle chunk ≠ .mbWriteReq ∧ classify mask .idle chunk ≠ .mbWriteRsp := by
  by_cases hne : chunk = []
  · simp [hne]
  · cases hmagic : isMagic mask chunk
    case true => simp [classify_magic hmagic]
    case false => simp [classify_idle hne hmagic, h]

/-- Settles O41: the byte at offset 1 decides whether the chunk is an exchange at all, and its length then which one. -/
theorem recognitionByLengthAndFunctionCode : Obligations.RecognitionByLengthAndFunctionCode := by
  intro mask chunk
  by_cases hcode : readByte chunk 1 = some 0x10
  · rw [classify_idle_of_functionCode hcode]
    by_cases hreq : chunk.length = 11
    · simp [hreq, hcode]
    · by_cases hrsp : chunk.length = 8 <;> simp [hreq, hrsp, hcode]
  · obtain ⟨hreq, hrsp⟩ := classify_idle_of_not_functionCode (mask := mask) hcode
    exact ⟨iff_of_false hreq fun h => hcode h.2, iff_of_false hrsp fun h => hcode h.2⟩

/-! ### The category -/

theorem categoryOf_of_ne {addr : Word16} (hconfig : addr ≠ 0x161E) (hstate : addr ≠ 0x1620) :
    categoryOf addr = .uncategorized := by
  rw [categoryOf, if_neg hconfig, if_neg hstate]

/-- In reach or not (R163), a request carries the category of its address. -/
@[simp] theorem requestExchange_category (cfg : Config) (unit : Byte) (addr qty : Word16) (wbc d0 d1 d2 d3 : Byte) :
    (requestExchange cfg unit addr qty wbc d0 d1 d2 d3).category = categoryOf addr := by
  unfold requestExchange
  cases reqInReach wbc <;> rfl

@[simp] theorem responseExchange_category (cfg : Config) (unit : Byte) (addr qty crc : Word16) :
    (responseExchange cfg unit addr qty crc).category = categoryOf addr := rfl

/-- Settles O40: the error kind of an exchange reads its `crcOk`, which another category leaves as it is. -/
theorem categoryOfAddress : Obligations.CategoryOfAddress := by
  refine ⟨by decide, by decide, fun _ => categoryOf_of_ne, fun cfg unit addr qty crc wbc d0 d1 d2 d3 => ?_,
    fun x c => ?_⟩
  · exact ⟨requestExchange_category cfg unit addr qty wbc d0 d1 d2 d3, responseExchange_category cfg unit addr qty crc⟩
  · simp only [Event.errorKind_modbusExchange]

end Sys2Proof.Machine
end

section
/-! PROOFS. `spec/43_frame_validator.md` R190 to R196: what `VALIDATE` does, the order of its checks, and when a frame is
valid. -/

namespace Sys2Proof.Machine

/-- A direct `VALIDATE` under an admissible context emits the validator's one event and nothing else. -/
theorem exec_validate_of_fits {s : State} (frame : Buffer) {ctx : DevId} (h : fitsDevId s.cfg.devIdWidth ctx = true) :
    exec (.validate frame ctx) s = .next { s with result := .nothing, events := s.events ++ [validation frame ctx] } :=
  State.takeContext_of_fits _ h

/-! ### The fields of a frame -/

/-- Step 3 (R193) accepts a byte as a record type exactly when it is that type's number. -/
theorem recordTypeOf_eq_some_iff {b : Byte} {rtype : RecordType} : recordTypeOf b = some rtype ↔ b = rtype.code := by
  constructor
  · intro h
    unfold recordTypeOf at h
    split_ifs at h with hconfig hstate hinfo <;> cases h <;> assumption
  · rintro rfl
    cases rtype <;> rfl

/-- Step 4 (R194): a zero source byte overrides the injected identifier, any other byte takes it as it is. -/
theorem sourceOf_eq_ite (b : Byte) (ctx : DevId) :
    sourceOf b ctx = (if b = 0 then .master else .slave, if b = 0 then 0 else ctx) := by
  unfold sourceOf isMaster
  by_cases hb : b = 0
  · rw [if_pos (beq_iff_eq.mpr hb), if_pos hb, if_pos hb]
  · rw [if_neg (hb ∘ beq_iff_eq.mp), if_neg hb, if_neg hb]

theorem sourceOf_eq_iff {b : Byte} {ctx d : DevId} {source : Source} :
    sourceOf b ctx = (source, d) ↔
      (source = .master ∧ b = 0 ∧ d = 0) ∨ (source = .slave ∧ b ≠ 0 ∧ d = ctx) := by
  rw [sourceOf_eq_ite, Prod.mk.injEq, eq_comm (b := source), eq_comm (b := d)]
  by_cases hb : b = 0
  · simp only [hb, if_true, ne_eq, not_true, false_and, and_false, or_false, true_and]
  · simp only [hb, if_false, ne_eq, not_false_eq_true, false_and, and_false, false_or, true_and]

/-! ### Steps 3 and 4 -/

/-- Steps 3 and 4 as the chain of tests of R190. -/
theorem typeAndSource_eq_ite (frame : Buffer) (typeByte sourceByte : Byte) (ctx : DevId) :
    typeAndSource frame typeByte sourceByte ctx =
      if typeByte = 1 then .frameValid frame .config (sourceOf sourceByte ctx).1 (sourceOf sourceByte ctx).2
      else if typeByte = 2 then .frameValid frame .state (sourceOf sourceByte ctx).1 (sourceOf sourceByte ctx).2
      else if typeByte = 3 then .frameValid frame .deviceInfo (sourceOf sourceByte ctx).1 (sourceOf sourceByte ctx).2
      else .frameRejected (.unknownRecordType typeByte) frame := by
  unfold typeAndSource recordTypeOf
  split_ifs <;> rfl

theorem typeAndSource_eq_frameValid_iff {frame g : Buffer} {typeByte sourceByte : Byte} {ctx d : DevId}
    {rtype : RecordType} {source : Source} :
    typeAndSource frame typeByte sourceByte ctx = .frameValid g rtype source d ↔
      g = frame ∧ typeByte = rtype.code ∧ sourceOf sourceByte ctx = (source, d) := by
  rw [← recordTypeOf_eq_some_iff, Prod.ext_iff]
  unfold typeAndSource
  cases recordTypeOf typeByte with
  | none => simp
  | some accepted => simp [eq_comm (a := g)]

/-! ### The validator of a long frame -/

/-- The validator's answer in terms of the three bytes it reads, whichever way they were read. -/
theorem validation_of_bytes {frame : Buffer} {stored typeByte sourceByte : Byte} (hlen : 300 ≤ frame.length)
    (hstored : readByte frame 299 = some stored) (htype : readByte frame 4 = some typeByte)
    (hsource : readByte frame 5 = some sourceByte) (ctx : DevId) :
    validation frame ctx =
      if stored ≠ windowSum frame then .frameRejected (.checksumMismatch (windowSum frame) stored) frame
      else typeAndSource frame typeByte sourceByte ctx := by
  obtain ⟨stored', typeByte', sourceByte', hstored', htype', hsource', hval⟩ := validation_long hlen ctx
  obtain rfl : stored' = stored := Option.some.inj (hstored'.symm.trans hstored)
  obtain rfl : typeByte' = typeByte := Option.some.inj (htype'.symm.trans htype)
  obtain rfl : sourceByte' = sourceByte := Option.some.inj (hsource'.symm.trans hsource)
  simpa [csumOk] using hval

/-! ### The statements -/

/-- Settles O48: the one event is `validation frame ctx`, whose branches are R190's checks in order. -/
theorem validateChecksInOrder : Obligations.ValidateChecksInOrder := by
  intro s frame ctx hfits
  refine ⟨validation frame ctx, exec_validate_of_fits frame hfits, fun h => validation_short h ctx, ?_⟩
  intro stored typeByte sourceByte sum hlen hstored htype hsource hsum
  obtain rfl : sum = windowSum frame := BitVec.eq_of_toNat_eq (hsum.trans (windowSum_toNat frame).symm)
  rw [validation_of_bytes hlen hstored htype hsource, typeAndSource_eq_ite, sourceOf_eq_ite]

/-- Settles O56: a short frame is rejected; a long one is valid when the checksum and the type pass, and the source step
then fixes the source and the identifier. -/
theorem frameValidExactlyWhen : Obligations.FrameValidExactlyWhen := by
  intro frame g ctx d rtype source
  by_cases hlen : frame.length < 300
  case pos => simp [validation_short hlen, Nat.not_le.mpr hlen]
  case neg =>
    have hlong : 300 ≤ frame.length := Nat.not_lt.mp hlen
    obtain ⟨stored, typeByte, sourceByte, hstored, htype, hsource, -⟩ := validation_long hlong ctx
    rw [validation_of_bytes hlong hstored htype hsource, hstored, htype, hsource]
    by_cases hsum : stored = windowSum frame
    case neg => simp [hsum]
    case pos => simp [hsum, hlong, typeAndSource_eq_frameValid_iff, sourceOf_eq_iff]

end Sys2Proof.Machine
end

section
/-! PROOFS. `spec/10_state.md` R21, R24, R26: the four ways a step can leave the registers, and the invariants every step
keeps. -/

namespace Sys2Proof.Machine

/-! ### How a step leaves the registers -/

/-- The ways an operation can leave `fsm`, `rem` and `acc`: as they were, cleared (R135, R210), holding a start chunk and its
count (R131), or with one more fragment (R134). -/
inductive State.Moved (s t : State) : Prop
  | kept (hfsm : t.fsm = s.fsm) (hrem : t.rem = s.rem) (hacc : t.acc = s.acc)
  | cleared (hfsm : t.fsm = .idle) (hrem : t.rem = 0) (hacc : t.acc = [])
  | started (n : Nibble) (rest : Buffer) (hadmits : admitsCount s.cfg.magic3Mask n = true) (hcount : n ≠ 0)
      (hlen : withinBound s.cfg.maxChunkLen (frameWire n rest).length = true)
      (hcap : withinBound s.cfg.accCapacity (frameWire n rest).length = true)
      (hfsm : t.fsm = .assembling) (hrem : t.rem = n.toNat) (hacc : t.acc = frameWire n rest)
  | appended (bytes : Buffer) (hlen : withinBound s.cfg.maxChunkLen bytes.length = true)
      (hcap : withinBound s.cfg.accCapacity (s.acc.length + bytes.length) = true)
      (hcount : countDown s.cfg s.rem ≠ 0) (hassembling : s.fsm = .assembling)
      (hfsm : t.fsm = .assembling) (hrem : t.rem = countDown s.cfg s.rem) (hacc : t.acc = s.acc ++ bytes)

theorem execChunk_moved {s t : State} {bytes : Buffer} {ctx : DevId} (h : execChunk bytes ctx s = .next t) :
    s.Moved t := by
  obtain ⟨hlen, ⟨-, rfl⟩ | ⟨n, rest, rfl, hadmits, -, hcap, _, -, ⟨-, rfl⟩ | ⟨hn, rfl⟩⟩ |
    ⟨hfsm, -, -, -, hcap, ⟨-, rfl⟩ | ⟨hcount, rfl⟩⟩ | ⟨-, -, -, _, rfl, -⟩⟩ := execChunk_next_cases h
  case inl => exact .kept rfl rfl rfl
  case inr.inl.inl => exact .cleared rfl rfl rfl
  case inr.inl.inr => exact .started n rest hadmits hn hlen hcap rfl rfl rfl
  case inr.inr.inl.inl => exact .cleared rfl rfl rfl
  case inr.inr.inl.inr => exact .appended bytes hlen hcap hcount hfsm hfsm rfl rfl
  case inr.inr.inr => exact .kept rfl rfl rfl

theorem step_moved {s t : State} (h : step s = .next t) : s.Moved t := by
  obtain ⟨-, rfl⟩ | ⟨op, waiting, -, ⟨bytes, ctx, -, hchunk⟩ | ⟨_, rfl, -⟩ | ⟨_, _, -, -, rfl⟩ | ⟨-, rfl⟩⟩ :=
    step_next_cases h
  case inl => exact .kept rfl rfl rfl
  case inr.inl =>
    cases execChunk_moved hchunk with
    | kept hfsm hrem hacc => exact .kept hfsm hrem hacc
    | cleared hfsm hrem hacc => exact .cleared hfsm hrem hacc
    | started n rest hadmits hcount hlen hcap hfsm hrem hacc =>
      exact .started n rest hadmits hcount hlen hcap hfsm hrem hacc
    | appended bytes hlen hcap hcount hassembling hfsm hrem hacc =>
      exact .appended bytes hlen hcap hcount hassembling hfsm hrem hacc
  case inr.inr.inl => exact .kept rfl rfl rfl
  case inr.inr.inr.inl => exact .kept rfl rfl rfl
  case inr.inr.inr.inr => exact .cleared rfl rfl rfl

/-- A `CHUNK` writes neither the parameters nor the queue (R62). -/
theorem execChunk_cfg_input {s t : State} {bytes : Buffer} {ctx : DevId} (h : execChunk bytes ctx s = .next t) :
    t.cfg = s.cfg ∧ t.input = s.input := by
  obtain ⟨-, ⟨-, rfl⟩ | ⟨_, _, -, -, -, -, _, -, ⟨-, rfl⟩ | ⟨-, rfl⟩⟩ |
    ⟨-, -, -, -, -, ⟨-, rfl⟩ | ⟨-, rfl⟩⟩ | ⟨-, -, -, _, rfl, -⟩⟩ := execChunk_next_cases h
  all_goals exact ⟨rfl, rfl⟩

theorem step_cfg_input {s t : State} (h : step s = .next t) : t.cfg = s.cfg ∧ t.input = s.input.tail := by
  obtain ⟨hin, rfl⟩ | ⟨op, waiting, hin, ⟨bytes, ctx, -, hchunk⟩ | ⟨_, rfl, -⟩ | ⟨_, _, -, -, rfl⟩ | ⟨-, rfl⟩⟩ :=
    step_next_cases h
  case inl => simp [hin]
  case inr.inl => simpa [hin] using execChunk_cfg_input hchunk
  all_goals simp [hin]

/-- Settles O19: what a step runs is a chunk, which keeps the parameters, or a direct operation, which names none of them. -/
theorem stepNeverWritesConfig : Obligations.StepNeverWritesConfig := fun _ _ h => (step_cfg_input h).1

/-- Settles O21: the operation is taken off the queue before it runs, and none writes the queue. -/
theorem stepConsumesOldest : Obligations.StepConsumesOldest := fun _ _ h => (step_cfg_input h).2

/-! ### The invariants R24 -/

/-- R24 with `acc` written out: a state with the invariants is `Idle` and cleared, or assembles a frame that begins with a
start chunk and awaits at least one and at most its count of further chunks. -/
theorem State.inv_iff {s : State} :
    s.Inv ↔ (s.fsm = .idle ∧ s.acc = [] ∧ s.rem = 0) ∨
      (s.fsm = .assembling ∧ ∃ n rest, s.acc = frameWire n rest ∧ admitsCount s.cfg.magic3Mask n = true ∧
        1 ≤ s.rem ∧ s.rem ≤ n.toNat) := by
  constructor
  · rintro ⟨hidle, hassembling, -⟩
    cases hfsm : s.fsm with
    | idle => exact .inl ⟨rfl, hidle hfsm⟩
    | assembling =>
      obtain ⟨hpos, -, hmagic, hcount⟩ := hassembling hfsm
      obtain ⟨n, rest, hacc, hadmits⟩ := (isMagic_iff_frameWire _ _).mp hmagic
      exact .inr ⟨rfl, n, rest, hacc, hadmits, hpos, by simpa [hacc] using hcount⟩
  · rintro (⟨hfsm, hacc, hrem⟩ | ⟨hfsm, n, rest, hacc, hadmits, hpos, hle⟩)
    · exact ⟨fun _ => ⟨hacc, hrem⟩, by simp [State.AssemblyStarted, hfsm], by simp [State.CountInRange, hrem]⟩
    · refine ⟨by simp [State.IdleClean, hfsm], fun _ => ⟨hpos, ?_, ?_, ?_⟩, ?_⟩
      · simp [hacc]
      · rw [hacc, isMagic_frameWire, hadmits]
      · simp [hacc, hle]
      · have := n.isLt
        show s.rem ≤ 15
        omega

/-- Settles O13: each way a step can leave the registers leads from a state with the invariants to one with them; a fragment
appended to a start chunk and what follows it leaves the start chunk in front. -/
theorem stepKeepsInvariant : Obligations.StepKeepsInvariant := by
  intro s t hinv h
  have hcfg : t.cfg = s.cfg := (step_cfg_input h).1
  have hrange : s.rem ≤ 15 := hinv.2.2
  rw [State.inv_iff] at hinv ⊢
  cases step_moved h with
  | kept hfsm hrem hacc => rwa [hfsm, hrem, hacc, hcfg]
  | cleared hfsm hrem hacc => exact .inl ⟨hfsm, hacc, hrem⟩
  | started n rest hadmits hcount _ _ hfsm hrem hacc =>
    have hpos : n.toNat ≠ 0 := fun h0 => hcount (BitVec.eq_of_toNat_eq h0)
    exact .inr ⟨hfsm, n, rest, hacc, hcfg ▸ hadmits, by omega, by omega⟩
  | appended bytes _ _ hcount hassembling hfsm hrem hacc =>
    obtain ⟨hidle, -⟩ | ⟨-, n, rest, hstart, hadmits, hpos, hle⟩ := hinv
    · rw [hidle] at hassembling; cases hassembling
    · rw [countDown_of_pos hpos (lt_of_countInRange hrange)] at hcount hrem
      exact .inr ⟨hfsm, n, rest ++ bytes, by rw [hacc, hstart]; rfl, hcfg ▸ hadmits, by omega, by omega⟩

/-- Settles O14: nine is the one count that the exact mask admits. -/
theorem exactMaskSharpensInvariant : Obligations.ExactMaskSharpensInvariant := by
  intro s hinv hmask hfsm
  obtain ⟨hidle, -⟩ | ⟨-, n, rest, hacc, hadmits, hpos, hle⟩ := State.inv_iff.mp hinv
  · rw [hidle] at hfsm; cases hfsm
  · rw [hmask, admitsCount_exact, beq_iff_eq] at hadmits
    subst hadmits
    exact ⟨by rw [hacc]; rfl, hpos, hle⟩

/-! ### The length of an assembly (R26) -/

theorem State.lengthBounded_iff {s : State} :
    s.LengthBounded ↔ (s.fsm = .assembling → ∀ m, s.cfg.maxChunkLen = some m → s.acc.length ≤ s.chunksHeld * m) := by
  simp [State.LengthBounded, Option.all_eq_true]

theorem State.chunksHeld_of_frameWire {s : State} {n : Nibble} {rest : Buffer} (h : s.acc = frameWire n rest) :
    s.chunksHeld = n.toNat + 1 - s.rem := by
  simp [State.chunksHeld, h]

/-- A start holds one chunk, and a fragment that counts `rem` down by one holds one chunk more; neither is longer than
`MAX_CHUNK_LEN`. -/
theorem step_lengthBounded {s t : State} (hinv : s.Inv) (hlen : s.LengthBounded) (h : step s = .next t) :
    t.LengthBounded := by
  rw [State.lengthBounded_iff] at hlen ⊢
  intro htfsm m hm
  rw [(step_cfg_input h).1] at hm
  have hrange : s.rem ≤ 15 := hinv.2.2
  cases step_moved h with
  | kept hfsm hrem hacc =>
    simpa [State.chunksHeld, hrem, hacc] using hlen (hfsm ▸ htfsm) m hm
  | cleared hfsm hrem hacc => simp [hacc]
  | started n rest _ _ hbound _ _ hrem hacc =>
    have hone : t.chunksHeld = 1 := by rw [State.chunksHeld_of_frameWire hacc]; omega
    rw [hm] at hbound
    simpa [hone, hacc] using hbound
  | appended bytes hbound _ _ hassembling _ hrem hacc =>
    obtain ⟨hidle, -⟩ | ⟨-, n, rest, hstart, -, hpos, hle⟩ := State.inv_iff.mp hinv
    · rw [hidle] at hassembling; cases hassembling
    · rw [countDown_of_pos hpos (lt_of_countInRange hrange)] at hrem
      have hacc' : t.acc = frameWire n (rest ++ bytes) := by rw [hacc, hstart]; rfl
      have hone : t.chunksHeld = s.chunksHeld + 1 := by
        rw [State.chunksHeld_of_frameWire hacc', State.chunksHeld_of_frameWire hstart]; omega
      have hold := hlen hassembling m hm
      have hnew : bytes.length ≤ m := by simpa [hm] using hbound
      calc t.acc.length = s.acc.length + bytes.length := by rw [hacc, List.length_append]
        _ ≤ s.chunksHeld * m + m := Nat.add_le_add hold hnew
        _ = t.chunksHeld * m := by rw [hone, Nat.succ_mul]

/-- Settles O15: a count is at most 15 and at least one chunk is awaited, so at most 15 chunks are held. -/
theorem assemblyLengthBounded : Obligations.AssemblyLengthBounded := by
  refine ⟨fun _ _ => step_lengthBounded, fun s m hinv hlen hm => ?_⟩
  obtain ⟨-, hacc, -⟩ | ⟨hfsm, n, rest, hacc, -, hpos, -⟩ := State.inv_iff.mp hinv
  · simp [hacc]
  · have hheld : s.chunksHeld ≤ 16 := by
      have := n.isLt
      rw [State.chunksHeld_of_frameWire hacc]; omega
    exact (State.lengthBounded_iff.mp hlen hfsm m hm).trans (Nat.mul_le_mul_right m hheld)

/-! ### Capacity and width (R21, R146) -/

theorem step_capacity {s t : State} (hcap : withinBound s.cfg.accCapacity s.acc.length = true) (h : step s = .next t) :
    withinBound t.cfg.accCapacity t.acc.length = true := by
  rw [(step_cfg_input h).1]
  cases step_moved h with
  | kept _ _ hacc => rwa [hacc]
  | cleared _ _ hacc => cases hbound : s.cfg.accCapacity <;> simp [hacc]
  | started n rest _ _ _ hnew _ _ hacc => rwa [hacc]
  | appended bytes _ hnew _ _ _ _ hacc => rwa [hacc, List.length_append]

theorem step_countFits {s t : State} (hfits : s.CountFits) (h : step s = .next t) : t.CountFits := by
  unfold State.CountFits
  rw [(step_cfg_input h).1]
  cases step_moved h with
  | kept _ hrem _ => rwa [hrem]
  | cleared _ hrem _ => rw [hrem]; exact Nat.two_pow_pos _
  | started n _ _ _ _ _ _ hrem _ => rw [hrem]; exact lt_of_countInRange (Nat.le_of_lt_succ n.isLt)
  | appended _ _ _ _ _ _ hrem _ => rw [hrem]; exact countDown_lt _ _

/-- Settles O16: every length and every count that a step stores has been checked against its bound. -/
theorem stepKeepsCapacity : Obligations.StepKeepsCapacity := ⟨fun _ _ => step_capacity, fun _ _ => step_countFits⟩

end Sys2Proof.Machine
end

section
/-! PROOFS. `spec/30_encoding.md` R70 to R88: the decoder against the encoder, the seven lines, the opcode table and the
magic compare. -/

namespace Sys2Proof

/-! ### Decoding what is encoded -/

theorem Instr.fsm_eq_of_fitsState {i : Instr} {f fsm : Fsm} (hrule : i.fsmRule = some f) (h : i.fitsState fsm = true) :
    fsm = f := by
  rw [Instr.fitsState, hrule] at h
  exact (beq_iff_eq.mp h).symm

theorem decodeChunk_unrecognized {mask : Magic3Mask} {raw : Buffer} (hne : raw ≠ []) (hmagic : isMagic mask raw = false)
    (hmodbus : isModbus raw = false) (ctx : DevId) : decodeChunk mask .idle raw ctx = .unrecognized raw := by
  rcases decodeChunk_cases mask .idle raw ctx with ⟨rfl, -⟩ | ⟨-, n, rest, rfl, hadmits, -⟩ | ⟨hfsm, -⟩ | ⟨hfsm, -⟩ |
    ⟨-, unit, addr, qty, wbc, d0, d1, d2, d3, rfl, -⟩ | ⟨-, unit, addr, qty, crc, rfl, -⟩ | ⟨-, -, -, -, hd⟩
  · exact absurd rfl hne
  · simp [hadmits] at hmagic
  · cases hfsm
  · cases hfsm
  · simp [isModbus, mbReqWire] at hmodbus
  · simp [isModbus, mbRspWire] at hmodbus
  · exact hd

/-- Settles O1, class by class: the state an instruction belongs to and its operand conditions send its bytes back to its
class; a direct operation is presented as it is. -/
theorem decodeOfEncode : Obligations.DecodeOfEncode := by
  intro cfg fsm i hwf hfits hchunk
  cases i with
  | empty => rfl
  | frameStart n rest ctx =>
    obtain rfl := Instr.fsm_eq_of_fitsState rfl hfits
    simp only [Instr.wf, Bool.and_eq_true] at hwf
    obtain ⟨⟨hadmits, -⟩, -⟩ := hwf
    simp only [encode, decode, decodeChunk_frameWire hadmits, ChunkOp.toInstr]
  | frameRestart n rest ctx =>
    obtain rfl := Instr.fsm_eq_of_fitsState rfl hfits
    simp only [Instr.wf, Bool.and_eq_true] at hwf
    obtain ⟨⟨hadmits, -⟩, -⟩ := hwf
    simp only [encode, decode, decodeChunk_frameWire hadmits, ChunkOp.toInstr]
  | fragment bytes ctx =>
    obtain rfl := Instr.fsm_eq_of_fitsState rfl hfits
    simp only [Instr.wf, Bool.and_eq_true, Bool.not_eq_true', List.isEmpty_eq_false_iff] at hwf
    obtain ⟨⟨⟨hne, hmagic⟩, -⟩, -⟩ := hwf
    simp only [encode, decode, decodeChunk_fragment hne hmagic, ChunkOp.toInstr]
  | mbWriteReq unit addr qty wbc d0 d1 d2 d3 =>
    obtain rfl := Instr.fsm_eq_of_fitsState rfl hfits
    simp only [encode, decode, decodeChunk_mbReqWire, ChunkOp.toInstr]
  | mbWriteRsp unit addr qty crc =>
    obtain rfl := Instr.fsm_eq_of_fitsState rfl hfits
    simp only [encode, decode, decodeChunk_mbRspWire, ChunkOp.toInstr]
  | unrecognized raw =>
    obtain rfl := Instr.fsm_eq_of_fitsState rfl hfits
    simp only [Instr.wf, Bool.and_eq_true, Bool.not_eq_true', List.isEmpty_eq_false_iff] at hwf
    obtain ⟨⟨⟨hne, hmagic⟩, hmodbus⟩, -⟩ := hwf
    simp only [encode, decode, decodeChunk_unrecognized hne hmagic hmodbus, ChunkOp.toInstr]
  | chunk bytes ctx => exact absurd rfl (hchunk bytes ctx)
  | crc16 buffer length => rfl
  | csum buffer => rfl
  | validate frame ctx => rfl
  | reset => rfl
  | status => rfl

/-! ### What the decoder keeps -/

theorem decodeChunk_wire (mask : Magic3Mask) (fsm : Fsm) (bytes : Buffer) (ctx : DevId) :
    (decodeChunk mask fsm bytes ctx).wire = bytes := by
  rcases decodeChunk_cases mask fsm bytes ctx with ⟨rfl, hd⟩ | ⟨-, n, rest, rfl, -, hd⟩ | ⟨-, n, rest, rfl, -, hd⟩ |
    ⟨-, -, -, hd⟩ | ⟨-, unit, addr, qty, wbc, d0, d1, d2, d3, rfl, hd⟩ | ⟨-, unit, addr, qty, crc, rfl, hd⟩ |
    ⟨-, -, -, -, hd⟩
  all_goals rw [hd]; rfl

theorem ChunkOp.toInstr_wire (c : ChunkOp) : c.toInstr.wire = some c.wire := by cases c <;> rfl

/-- Settles O2: the bytes of each class are the format the chunk was matched against. -/
theorem decodedBytesKept : Obligations.DecodedBytesKept := fun mask fsm bytes ctx =>
  ⟨decodeChunk_wire mask fsm bytes ctx, by rw [ChunkOp.toInstr_wire, decodeChunk_wire]⟩

/-- A decoded chunk belongs to the state it was decoded in, and meets the operand conditions of its class. -/
theorem decodeChunk_wf_fitsState {cfg : Config} {bytes : Buffer} {ctx : DevId} (fsm : Fsm)
    (hlen : withinBound cfg.maxChunkLen bytes.length = true) (hctx : fitsDevId cfg.devIdWidth ctx = true) :
    (decodeChunk cfg.magic3Mask fsm bytes ctx).toInstr.wf cfg = true ∧
      (decodeChunk cfg.magic3Mask fsm bytes ctx).toInstr.fitsState fsm = true := by
  rcases decodeChunk_cases cfg.magic3Mask fsm bytes ctx with ⟨-, hd⟩ | ⟨rfl, n, rest, rfl, hadmits, hd⟩ |
    ⟨rfl, n, rest, rfl, hadmits, hd⟩ | ⟨rfl, hne, hmagic, hd⟩ | ⟨rfl, unit, addr, qty, wbc, d0, d1, d2, d3, rfl, hd⟩ |
    ⟨rfl, unit, addr, qty, crc, rfl, hd⟩ | ⟨rfl, hne, hmagic, hmodbus, hd⟩
  all_goals rw [hd]
  case inl => exact ⟨rfl, rfl⟩
  case inr.inl => exact ⟨by simp only [ChunkOp.toInstr, Instr.wf, hadmits, hlen, hctx, Bool.and_self], rfl⟩
  case inr.inr.inl => exact ⟨by simp only [ChunkOp.toInstr, Instr.wf, hadmits, hlen, hctx, Bool.and_self], rfl⟩
  case inr.inr.inr.inl => exact ⟨by simp [ChunkOp.toInstr, Instr.wf, hne, hmagic, hlen, hctx], rfl⟩
  case inr.inr.inr.inr.inl => exact ⟨hlen, rfl⟩
  case inr.inr.inr.inr.inr.inl => exact ⟨hlen, rfl⟩
  case inr.inr.inr.inr.inr.inr => exact ⟨by simp [ChunkOp.toInstr, Instr.wf, hne, hmagic, hmodbus, hlen], rfl⟩

/-- Settles O3: a direct operation decodes to itself, whose one condition is the width of its context. -/
theorem decodedIsWellFormed : Obligations.DecodedIsWellFormed := by
  intro cfg fsm op hlen hctx
  cases op with
  | chunk bytes ctx => exact decodeChunk_wf_fitsState fsm (hlen bytes ctx rfl) hctx
  | crc16 buffer length => exact ⟨rfl, rfl⟩
  | csum buffer => exact ⟨rfl, rfl⟩
  | validate frame ctx => exact ⟨hctx, rfl⟩
  | reset => exact ⟨rfl, rfl⟩
  | status => exact ⟨rfl, rfl⟩

/-! ### The seven lines and the opcode table -/

/-- Outside the two Modbus formats a non-empty, non-magic chunk in `Idle` falls to the last line (R84). -/
theorem classify_unrecognized {mask : Magic3Mask} {raw : Buffer} (hne : raw ≠ []) (hmagic : isMagic mask raw = false)
    (hmodbus : isModbus raw = false) : classify mask .idle raw = .unrecognized := by
  have hlen : ∀ len, (len = 11 ∨ len = 8) → ¬ (raw.length = len ∧ readByte raw 1 = some mbFunctionCode) := by
    rintro len (rfl | rfl) ⟨hl, hcode⟩ <;> simp [isModbus, hl, hcode] at hmodbus
  rw [classify_idle hne hmagic, if_neg (hlen 11 (.inl rfl)), if_neg (hlen 8 (.inr rfl))]

theorem decodeChunk_cls (mask : Magic3Mask) (fsm : Fsm) (chunk : Buffer) (ctx : DevId) :
    (decodeChunk mask fsm chunk ctx).cls = classify mask fsm chunk := by
  rcases decodeChunk_cases mask fsm chunk ctx with ⟨rfl, hd⟩ | ⟨rfl, n, rest, rfl, hadmits, hd⟩ |
    ⟨rfl, n, rest, rfl, hadmits, hd⟩ | ⟨rfl, hne, hmagic, hd⟩ | ⟨rfl, unit, addr, qty, wbc, d0, d1, d2, d3, rfl, hd⟩ |
    ⟨rfl, unit, addr, qty, crc, rfl, hd⟩ | ⟨rfl, hne, hmagic, hmodbus, hd⟩
  all_goals rw [hd]
  · exact (classify_empty mask fsm).symm
  · exact (classify_frameWire hadmits .idle rest).symm
  · exact (classify_frameWire hadmits .assembling rest).symm
  · exact (classify_assembling hne hmagic).symm
  · exact (classify_mbReqWire mask .idle unit addr qty wbc d0 d1 d2 d3).symm
  · exact (classify_mbRspWire mask .idle unit addr qty crc).symm
  · exact (classify_unrecognized hne hmagic hmodbus).symm

/-- Settles O4: `classify` is the seven lines as they stand. -/
theorem decoderFollowsSevenLines : Obligations.DecoderFollowsSevenLines := fun mask fsm chunk ctx =>
  ⟨decodeChunk_cls mask fsm chunk ctx, rfl⟩

/-- The first matching row is the first of the seven lines that applies (R88): line by line the row's compare is the line's
condition, once the lines before it are excluded. -/
theorem tableClass_eq_classify (mask : Magic3Mask) (fsm : Fsm) (chunk : Buffer) :
    tableClass mask fsm chunk = some (classify mask fsm chunk) := by
  simp only [tableClass, opcodeRows, List.find?_cons, rowMatches_any, rowMatches_frame, rowMatches_modbus, lengthOk,
    List.find?_nil]
  by_cases hne : chunk = []
  · simp [hne]
  have hpos : 1 ≤ chunk.length := List.length_pos_iff.mpr hne
  have hzero : (chunk.length == 0) = false := by simp [hne]
  have hidle : (Fsm.idle == Fsm.assembling) = false := rfl
  have hassembling : (Fsm.assembling == Fsm.idle) = false := rfl
  cases hmagic : isMagic mask chunk
  case true => cases fsm <;> simp [classify_magic hmagic, hzero, hidle]
  case false =>
    cases fsm with
    | assembling => simp [classify_assembling hne hmagic, hzero, hpos, hidle]
    | idle =>
      rw [classify_idle hne hmagic]
      by_cases hcode : readByte chunk 1 = some mbFunctionCode
      · by_cases hreq : chunk.length = 11
        · simp [hreq, hcode, hassembling]
        · by_cases hrsp : chunk.length = 8
          · simp [hrsp, hcode, hassembling]
          · simp [hreq, hrsp, beq_false_of_ne hreq, beq_false_of_ne hrsp, hzero, hpos, hassembling]
      · simp [hcode, beq_false_of_ne hcode, hzero, hpos, hassembling]

/-- Settles O5, through the seven lines, which the table and the decoder both follow. -/
theorem opcodeTableAgreesWithDecoder : Obligations.OpcodeTableAgreesWithDecoder :=
  ⟨fun mask => by simp [opcodeRows], fun mask fsm chunk ctx => by rw [tableClass_eq_classify, decodeChunk_cls]⟩

/-! ### The magic compare and the count -/

theorem isMagic_iff_readByte (mask : Magic3Mask) (chunk : Buffer) :
    isMagic mask chunk = true ↔
      readByte chunk 0 = some 0x55 ∧ readByte chunk 1 = some 0xAA ∧ readByte chunk 2 = some 0xEB ∧
        ∃ b, readByte chunk 3 = some b ∧ b &&& maskByte mask = 0x90 &&& maskByte mask := by
  simp [isMagic, magic3Ok, Option.any_eq_true, and_assoc]

theorem lt_length_of_readByte {buf : Buffer} {i : Nat} {b : Byte} (h : readByte buf i = some b) : i < buf.length :=
  (List.getElem?_eq_some_iff.mp h).1

theorem isMagic_exact_iff (chunk : Buffer) :
    isMagic .exact chunk = true ↔ ∃ rest, chunk = 0x55 :: 0xAA :: 0xEB :: 0x90 :: rest := by
  rw [isMagic_iff_frameWire]
  constructor
  · rintro ⟨n, rest, rfl, hadmits⟩
    rw [admitsCount_exact, beq_iff_eq] at hadmits
    exact ⟨rest, by rw [hadmits]; rfl⟩
  · rintro ⟨rest, rfl⟩
    exact ⟨9, rest, rfl, rfl⟩

theorem magic3Ok_upperFree (b : Byte) : magic3Ok .upperFree b = true ↔ b.toNat % 16 = 0 := by
  revert b; decide

theorem isMagic_upperFree_iff (chunk : Buffer) :
    isMagic .upperFree chunk = true ↔ ∃ b rest, chunk = 0x55 :: 0xAA :: 0xEB :: b :: rest ∧ b.toNat % 16 = 0 := by
  constructor
  · intro h
    obtain ⟨n, rest, rfl, hadmits⟩ := (isMagic_iff_frameWire _ _).mp h
    exact ⟨nibbleByte n, rest, rfl, (magic3Ok_upperFree _).mp hadmits⟩
  · rintro ⟨b, rest, rfl, hb⟩
    simp [isMagic_cons, (magic3Ok_upperFree b).mpr hb]

/-- Settles O6: a byte at offset 3 makes the chunk long enough. -/
theorem magicCompareBytes : Obligations.MagicCompareBytes := by
  intro mask chunk
  refine ⟨?_, by rintro rfl; exact isMagic_exact_iff chunk, by rintro rfl; exact isMagic_upperFree_iff chunk⟩
  rw [isMagic_iff_readByte, iff_and_self]
  rintro ⟨-, -, -, b, hb, -⟩
  exact lt_length_of_readByte hb

/-- Settles O7: the upper nibble of a byte is its quotient by 16, and of `0x90` it is 9. -/
theorem fragmentCountField : Obligations.FragmentCountField := by
  refine ⟨fun chunk b hb => ⟨upperNibble b, by simp [fragmentCount, hb], upperNibble_toNat b⟩, fun chunk h => ?_,
    fun n rest => ⟨by rw [isMagic_frameWire, admitsCount_upperFree], fragmentCount_frameWire n rest⟩⟩
  obtain ⟨rest, rfl⟩ := (isMagic_exact_iff chunk).mp h
  rfl

/-- Settles O8, by running the decoder on the seven chunks. -/
theorem writtenChunksDecode : Obligations.WrittenChunksDecode := by
  unfold Obligations.WrittenChunksDecode
  decide

end Sys2Proof
end

section
/-! PROOFS. `spec/41_frame_reassembler.md` R131 to R139, `spec/42_modbus_classifier.md` R162 to R166: what each chunk class
does in its state, and what `CHUNK` answers on a chunk of each class. -/

namespace Sys2Proof.Machine

/-! ### Lengths and contexts -/

theorem withinBound_eq_true_iff {bound : Option Nat} {len : Nat} :
    withinBound bound len = true ↔ ∀ m, bound = some m → len ≤ m := by
  cases bound <;> simp

theorem withinBound_eq_false_iff {bound : Option Nat} {len : Nat} :
    withinBound bound len = false ↔ ∃ m, bound = some m ∧ m < len := by
  cases bound <;> simp

theorem fitsDevId_eq_false_iff {width : Nat} {id : DevId} : fitsDevId width id = false ↔ 2 ^ width ≤ id := by
  simp [fitsDevId]

@[simp] theorem withinBound_zero (bound : Option Nat) : withinBound bound 0 = true := by cases bound <;> simp

/-! ### The frame classes -/

theorem execFrameStart_eq_startFrame {s : State} {n : Nibble} {rest : Buffer} (ctx : DevId) (hfsm : s.fsm = .idle)
    (hadmits : admitsCount s.cfg.magic3Mask n = true)
    (hlen : withinBound s.cfg.maxChunkLen (frameWire n rest).length = true) :
    execFrameStart n rest ctx s = s.startFrame n (frameWire n rest) ctx :=
  State.deliver_of_class _ hlen (by rw [State.classOf_eq, hfsm]; exact classify_frameWire hadmits .idle rest)

theorem execFrameRestart_eq_startFrame {s : State} {n : Nibble} {rest : Buffer} (ctx : DevId) (hfsm : s.fsm = .assembling)
    (hadmits : admitsCount s.cfg.magic3Mask n = true)
    (hlen : withinBound s.cfg.maxChunkLen (frameWire n rest).length = true) :
    execFrameRestart n rest ctx s =
      ((s.emit (.assemblyAbandoned s.acc)).clearAssembly).startFrame n (frameWire n rest) ctx :=
  State.deliver_of_class _ hlen (by rw [State.classOf_eq, hfsm]; exact classify_frameWire hadmits .assembling rest)

/-- A start that is neither under too wide a context nor over the capacity (R131, R135). -/
theorem State.startFrame_of_admitted {s : State} {chunk : Buffer} {ctx : DevId} (n : Nibble)
    (hctx : fitsDevId s.cfg.devIdWidth ctx = true) (hcap : withinBound s.cfg.accCapacity chunk.length = true) :
    s.startFrame n chunk ctx =
      if n = 0 then
        .next { s with
          fsm := .idle, rem := 0, acc := [], result := .nothing,
          events := s.events ++ [.frameEmitted chunk, validation chunk ctx] }
      else .next { s with fsm := .assembling, rem := n.toNat, acc := chunk, result := .nothing } := by
  rw [State.startFrame_eq, if_neg (by simp [hctx]), if_neg (by simp [hcap])]

/-- The same start after an abandoned assembly: the report stands in front of the start's own events (R133). -/
theorem State.restartFrame_of_admitted {s : State} {chunk : Buffer} {ctx : DevId} (n : Nibble)
    (hctx : fitsDevId s.cfg.devIdWidth ctx = true) (hcap : withinBound s.cfg.accCapacity chunk.length = true) :
    ((s.emit (.assemblyAbandoned s.acc)).clearAssembly).startFrame n chunk ctx =
      if n = 0 then
        .next { s with
          fsm := .idle, rem := 0, acc := [], result := .nothing,
          events := s.events ++ [.assemblyAbandoned s.acc, .frameEmitted chunk, validation chunk ctx] }
      else .next { s with
          fsm := .assembling, rem := n.toNat, acc := chunk, result := .nothing,
          events := s.events ++ [.assemblyAbandoned s.acc] } := by
  rw [State.startFrame_of_admitted (s := (s.emit (.assemblyAbandoned s.acc)).clearAssembly) n hctx hcap]
  simp [State.emit, State.clearAssembly]

/-- Settles O33: in `Idle` the start chunk is delivered, and the capacity and the context let it through. -/
theorem frameStartStoresChunk : Obligations.FrameStartStoresChunk := by
  intro s n rest ctx hfsm hctx hadmits hlen hcap
  rw [exec, execFrameStart_eq_startFrame ctx hfsm hadmits hlen, State.startFrame_of_admitted n hctx hcap]

/-- Settles O34: as the start, with the report of the old assembly in front. -/
theorem frameRestartAbandonsAssembly : Obligations.FrameRestartAbandonsAssembly := by
  intro s n rest ctx hfsm hctx hadmits hlen hcap
  rw [exec, execFrameRestart_eq_startFrame ctx hfsm hadmits hlen, State.restartFrame_of_admitted n hctx hcap]

/-- A fragment that is neither under too wide a context nor over the capacity, with at least one awaited: the register
counts down to 0 exactly from 1 (R134, R135). -/
theorem execFragment_of_admitted {s : State} {bytes : Buffer} {ctx : DevId} (hcls : s.classOf bytes = .fragment)
    (hpos : 1 ≤ s.rem) (hfits : s.CountFits) (hctx : fitsDevId s.cfg.devIdWidth ctx = true)
    (hlen : withinBound s.cfg.maxChunkLen bytes.length = true)
    (hcap : withinBound s.cfg.accCapacity (s.acc.length + bytes.length) = true) :
    execFragment bytes ctx s =
      if s.rem = 1 then
        .next { s with
          fsm := .idle, rem := 0, acc := [], result := .nothing,
          events := s.events ++ [.frameEmitted (s.acc ++ bytes), validation (s.acc ++ bytes) ctx] }
      else .next { s with rem := s.rem - 1, acc := s.acc ++ bytes, result := .nothing } := by
  rw [execFragment_eq ctx hlen hcls, if_neg (by simp [hctx]), if_neg (by simp [hcap])]
  simp only [countDown_eq_zero hfits]
  rw [countDown_of_pos hpos hfits]

/-- Settles O35. -/
theorem fragmentAppendsAndCounts : Obligations.FragmentAppendsAndCounts := by
  intro s bytes ctx hfsm hpos hfits hne hctx hmagic hlen hcap
  have hcls : s.classOf bytes = .fragment := by
    rw [State.classOf_eq, hfsm]; exact classify_assembling hne hmagic
  exact execFragment_of_admitted hcls hpos hfits hctx hlen hcap

/-! ### The classes that touch no register -/

/-- Settles O32: the empty chunk is within every bound and of its class in either state. -/
theorem emptyChangesNothing : Obligations.EmptyChangesNothing := fun _ =>
  State.deliver_of_class _ (withinBound_zero _) (classify_empty _ _)

theorem execUnrecognized_eq {s : State} {raw : Buffer} (hfsm : s.fsm = .idle) (hne : raw ≠ [])
    (hmagic : isMagic s.cfg.magic3Mask raw = false) (hmodbus : isModbus raw = false)
    (hlen : withinBound s.cfg.maxChunkLen raw.length = true) :
    execUnrecognized raw s = .next { s with result := .nothing, events := s.events ++ [.unrecognized raw] } :=
  State.deliver_of_class _ hlen (by rw [State.classOf_eq, hfsm]; exact classify_unrecognized hne hmagic hmodbus)

theorem isModbus_eq_false_iff (chunk : Buffer) :
    isModbus chunk = false ↔ ¬ ((chunk.length = 11 ∨ chunk.length = 8) ∧ readByte chunk 1 = some mbFunctionCode) := by
  rw [← Bool.not_eq_true]
  simp [isModbus]

/-- Settles O36: no line of the classification before the last applies to the chunk. -/
theorem unrecognizedReportsChunk : Obligations.UnrecognizedReportsChunk := fun _ raw hfsm hne hmagic hmodbus hlen =>
  execUnrecognized_eq hfsm hne hmagic ((isModbus_eq_false_iff raw).mpr hmodbus) hlen

theorem execMbWriteReq_eq {s : State} (unit : Byte) (addr qty : Word16) (wbc d0 d1 d2 d3 : Byte) (hfsm : s.fsm = .idle)
    (hlen : withinBound s.cfg.maxChunkLen 11 = true) :
    execMbWriteReq unit addr qty wbc d0 d1 d2 d3 s =
      .next { s with
        result := .nothing
        events := s.events ++ [.modbusExchange (requestExchange s.cfg unit addr qty wbc d0 d1 d2 d3)] } :=
  State.deliver_of_class _ hlen
    (by rw [State.classOf_eq, hfsm]; exact classify_mbReqWire _ .idle unit addr qty wbc d0 d1 d2 d3)

theorem execMbWriteRsp_eq {s : State} (unit : Byte) (addr qty crc : Word16) (hfsm : s.fsm = .idle)
    (hlen : withinBound s.cfg.maxChunkLen 8 = true) :
    execMbWriteRsp unit addr qty crc s =
      .next { s with
        result := .nothing
        events := s.events ++ [.modbusExchange (responseExchange s.cfg unit addr qty crc)] } :=
  State.deliver_of_class _ hlen (by rw [State.classOf_eq, hfsm]; exact classify_mbRspWire _ .idle unit addr qty crc)

/-! ### The fields of an exchange -/

theorem windowCrc_of_le (cfg : Config) {chunk : Buffer} {length : Nat} (h : length ≤ chunk.length) :
    windowCrc cfg chunk length = some (crcRegs cfg (chunk.take length)).value := by
  rw [windowCrc, crc16_of_le cfg h]; rfl

/-- The exchange of a request whose layout lies within its eleven bytes (R162), from the data and the field in them. -/
theorem requestExchange_of_inReach (cfg : Config) (unit : Byte) (addr qty : Word16) {wbc d0 d1 d2 d3 : Byte}
    {data : Buffer} {field : Word16} (h : wbc.toNat ≤ 2)
    (hdata : reqData (mbReqWire unit addr qty wbc d0 d1 d2 d3) wbc = some data)
    (hfield : reqCrcField (mbReqWire unit addr qty wbc d0 d1 d2 d3) wbc = some field) :
    requestExchange cfg unit addr qty wbc d0 d1 d2 d3 =
      let computed := (crcRegs cfg ((mbReqWire unit addr qty wbc d0 d1 d2 d3).take (7 + wbc.toNat))).value
      { kind := .request, raw := mbReqWire unit addr qty wbc d0 d1 d2 d3, unit := unit, addr := addr, qty := qty,
        wbc := some wbc, data := some data, crcField := some field, crcCalc := some computed,
        crcOk := computed == field, category := categoryOf addr } := by
  have hreach : reqInReach wbc = true := decide_eq_true (by omega)
  have hwindow : reqWindow wbc ≤ (mbReqWire unit addr qty wbc d0 d1 d2 d3).length := by
    rw [reqWindow, mbReqWire_length]; omega
  simp only [requestExchange, hreach, if_true, hdata, hfield, windowCrc_of_le cfg hwindow, crcOk]
  rfl

/-- The exchange of a request whose layout passes its eleven bytes (R163). -/
theorem requestExchange_of_outOfReach (cfg : Config) (unit : Byte) (addr qty : Word16) {wbc : Byte} (d0 d1 d2 d3 : Byte)
    (h : 3 ≤ wbc.toNat) :
    requestExchange cfg unit addr qty wbc d0 d1 d2 d3 =
      { kind := .request, raw := mbReqWire unit addr qty wbc d0 d1 d2 d3, unit := unit, addr := addr, qty := qty,
        wbc := some wbc, data := none, crcField := none, crcCalc := none, crcOk := false,
        category := categoryOf addr } := by
  have hreach : reqInReach wbc = false := decide_eq_false (by omega)
  simp [requestExchange, hreach]

/-- The exchange of a response (R166). -/
theorem responseExchange_eq (cfg : Config) (unit : Byte) (addr qty crc : Word16) :
    responseExchange cfg unit addr qty crc =
      let computed := (crcRegs cfg ((mbRspWire unit addr qty crc).take 6)).value
      { kind := .response, raw := mbRspWire unit addr qty crc, unit := unit, addr := addr, qty := qty, wbc := none,
        data := none, crcField := some crc, crcCalc := some computed, crcOk := computed == crc,
        category := categoryOf addr } := by
  have hwindow : windowCrc cfg (mbRspWire unit addr qty crc) rspWindow =
      some (crcRegs cfg ((mbRspWire unit addr qty crc).take 6)).value := windowCrc_of_le cfg (by decide : 6 ≤ 8)
  have hfield : be16At (mbRspWire unit addr qty crc) rspWindow = some crc := congrArg some (be16_high_low crc)
  simp only [responseExchange, hwindow, hfield, crcOk]

/-- Data and CRC field of a request lie where its byte count says: directly after the count (R75), and after the data
(R76). -/
theorem reqData_reqCrcField (unit : Byte) (addr qty : Word16) (d0 d1 d2 d3 : Byte) {wbc : Byte} (h : wbc.toNat ≤ 2) :
    ∃ data field,
      reqData (mbReqWire unit addr qty wbc d0 d1 d2 d3) wbc = some data ∧
      reqCrcField (mbReqWire unit addr qty wbc d0 d1 d2 d3) wbc = some field ∧
      (wbc = 0 → data = [] ∧ field = be16 d0 d1) ∧
      (wbc = 1 → data = [d0] ∧ field = be16 d1 d2) ∧
      (wbc = 2 → data = [d0, d1] ∧ field = be16 d2 d3) := by
  have hwbc : wbc = 0 ∨ wbc = 1 ∨ wbc = 2 := by bv_omega
  rcases hwbc with rfl | rfl | rfl
  · exact ⟨[], be16 d0 d1, rfl, rfl, fun _ => ⟨rfl, rfl⟩, (absurd · (by decide)), (absurd · (by decide))⟩
  · exact ⟨[d0], be16 d1 d2, rfl, rfl, (absurd · (by decide)), fun _ => ⟨rfl, rfl⟩, (absurd · (by decide))⟩
  · exact ⟨[d0, d1], be16 d2 d3, rfl, rfl, (absurd · (by decide)), (absurd · (by decide)), fun _ => ⟨rfl, rfl⟩⟩

theorem mbReqWire_be16 (unit a1 a0 q1 q0 wbc d0 d1 d2 d3 : Byte) :
    mbReqWire unit (be16 a1 a0) (be16 q1 q0) wbc d0 d1 d2 d3 = [unit, 0x10, a1, a0, q1, q0, wbc, d0, d1, d2, d3] := by
  simp [mbReqWire, mbFunctionCode]

theorem mbRspWire_be16 (unit a1 a0 q1 q0 c1 c0 : Byte) :
    mbRspWire unit (be16 a1 a0) (be16 q1 q0) (be16 c1 c0) = [unit, 0x10, a1, a0, q1, q0, c1, c0] := by
  simp [mbRspWire, mbFunctionCode]

/-- Settles O37: the window, the data and the field lie within the eleven bytes for each of the three counts. -/
theorem requestInReachChecksCrc : Obligations.RequestInReachChecksCrc := by
  intro s unit a1 a0 q1 q0 wbc d0 d1 d2 d3 hfsm hwbc hlen
  obtain ⟨data, field, hdata, hfield, h0, h1, h2⟩ :=
    reqData_reqCrcField unit (be16 a1 a0) (be16 q1 q0) d0 d1 d2 d3 hwbc
  refine ⟨data, field, _, ?_, (crc16_of_le s.cfg (by simp only [List.length_cons, List.length_nil]; omega)).symm,
    fun h => ?_, fun h => ?_, fun h => ?_⟩
  · rw [exec, execMbWriteReq_eq _ _ _ _ _ _ _ _ hfsm hlen,
      requestExchange_of_inReach s.cfg unit (be16 a1 a0) (be16 q1 q0) hwbc hdata hfield, mbReqWire_be16]
  · exact (h0 h).imp_right fun hf => by rw [hf, be16_toNat]
  · exact (h1 h).imp_right fun hf => by rw [hf, be16_toNat]
  · exact (h2 h).imp_right fun hf => by rw [hf, be16_toNat]

/-- Settles O38: past its eleven bytes a request's layout is not read at all. -/
theorem requestOutOfReachFailsCheck : Obligations.RequestOutOfReachFailsCheck := by
  intro s unit addr qty wbc d0 d1 d2 d3 hfsm hwbc hlen
  rw [exec, execMbWriteReq_eq _ _ _ _ _ _ _ _ hfsm hlen, requestExchange_of_outOfReach s.cfg unit addr qty d0 d1 d2 d3 hwbc]

/-- Settles O39: the two bytes after the window are the CRC field as the decoder read it. -/
theorem responseChecksCrc : Obligations.ResponseChecksCrc := by
  intro s unit a1 a0 q1 q0 c1 c0 hfsm hlen
  refine ⟨_, ?_, (crc16_of_le s.cfg (by simp)).symm, be16_toNat a1 a0, be16_toNat q1 q0, be16_toNat c1 c0⟩
  rw [exec, execMbWriteRsp_eq _ _ _ _ hfsm hlen, responseExchange_eq, mbRspWire_be16]

/-- The word the two CRC registers make is the one a chunk that ends with `crc_hi`, `crc_lo` carries (R88). -/
theorem mbRspChunk_eq (cfg : Config) (unit : Byte) (addr qty : Word16) :
    mbRspChunk cfg unit addr qty =
      mbRspWire unit addr qty
        (crcRegs cfg [unit, mbFunctionCode, highByte addr, lowByte addr, highByte qty, lowByte qty]).value := by
  simp [mbRspChunk, mbRspWire, crcBytes, CrcRegs.value]

theorem mbReqChunk_eq (cfg : Config) (unit : Byte) (addr qty : Word16) (d0 d1 : Byte) :
    let regs := crcRegs cfg [unit, mbFunctionCode, highByte addr, lowByte addr, highByte qty, lowByte qty, 0x02, d0, d1]
    mbReqChunk cfg unit addr qty d0 d1 = mbReqWire unit addr qty 0x02 d0 d1 regs.hi regs.lo := rfl

theorem execChunk_mbRspWire {s : State} (unit : Byte) (addr qty crc : Word16) (ctx : DevId) (hfsm : s.fsm = .idle) :
    execChunk (mbRspWire unit addr qty crc) ctx s = execMbWriteRsp unit addr qty crc s := by
  rw [execChunk, hfsm, decodeChunk_mbRspWire]

theorem execChunk_mbReqWire {s : State} (unit : Byte) (addr qty : Word16) (wbc d0 d1 d2 d3 : Byte) (ctx : DevId)
    (hfsm : s.fsm = .idle) :
    execChunk (mbReqWire unit addr qty wbc d0 d1 d2 d3) ctx s = execMbWriteReq unit addr qty wbc d0 d1 d2 d3 s := by
  rw [execChunk, hfsm, decodeChunk_mbReqWire]

/-- Settles O58: the two bytes after the window are the CRC registers after the window, so they carry the computed CRC. -/
theorem pseudoExchangesPassCheck : Obligations.PseudoExchangesPassCheck := by
  intro s ctx unit addr qty d0 d1 hfsm hbound
  have hlen : ∀ len, withinBound s.cfg.maxChunkLen len = true := by simp [hbound]
  constructor
  · rw [mbRspChunk_eq, exec, execChunk_mbRspWire _ _ _ _ ctx hfsm, execMbWriteRsp_eq _ _ _ _ hfsm (hlen 8),
      responseExchange_eq]
    exact ⟨_, _, rfl, rfl, rfl, beq_self_eq_true _, rfl, rfl, rfl, rfl⟩
  · rw [mbReqChunk_eq, exec, execChunk_mbReqWire _ _ _ _ _ _ _ _ ctx hfsm,
      execMbWriteReq_eq _ _ _ _ _ _ _ _ hfsm (hlen 11),
      requestExchange_of_inReach s.cfg unit addr qty (by decide) rfl rfl]
    exact ⟨_, _, rfl, rfl, rfl, beq_self_eq_true _, rfl, rfl, rfl, rfl, rfl⟩

end Sys2Proof.Machine
end

section
/-! PROOFS. `spec/40_integrity_engines.md` R103 to R106, R112: what the two integrity engines compute. -/

namespace Sys2Proof.Machine

/-! ### The length of a `CRC16` -/

/-- Settles O45: both answers read the buffer's first `length` bytes alone. -/
theorem crcLengthAgainstBuffer : Obligations.CrcLengthAgainstBuffer := by
  refine ⟨fun s buffer length h => by rw [exec_crc16, crc16_of_lt s.cfg h, crcResult], ?_⟩
  intro s buffer other length hbuffer hother htake
  rw [exec_crc16_of_le s hbuffer, exec_crc16_of_le s hother, htake]

theorem crc16_whole (cfg : Config) (w : Buffer) : crc16 cfg w w.length = .ok (crcRegs cfg w).value := by
  rw [crc16_of_le cfg (Nat.le_refl _), List.take_length]

/-! ### The residue -/

/-- Feeding the register `crc_hi` back makes the index 0; where the tables are 0 there, `crc_lo` moves up and nothing is
added. -/
theorem crcStep_hi {cfg : Config} (hhi : tableRead cfg.hiTable 0 = 0) (hlo : tableRead cfg.loTable 0 = 0) (r : CrcRegs) :
    crcStep cfg r r.hi = ⟨r.lo, 0⟩ := by
  have hidx : r.hi ^^^ r.hi = 0 := BitVec.xor_self
  simp only [crcStep, hidx, hhi, hlo]
  simp

theorem crcRegs_append_own {cfg : Config} (hhi : tableRead cfg.hiTable 0 = 0) (hlo : tableRead cfg.loTable 0 = 0)
    (w : Buffer) : crcRegs cfg (w ++ [(crcRegs cfg w).hi, (crcRegs cfg w).lo]) = ⟨0, 0⟩ := by
  rw [List.append_cons, crcRegs_append_one, crcRegs_append_one, crcStep_hi hhi hlo]
  exact crcStep_hi hhi hlo ⟨(crcRegs cfg w).lo, 0⟩

/-- Settles O52: each of the two bytes fed back makes the index 0 and clears the register it came from. -/
theorem crcResidueIsZero : Obligations.CrcResidueIsZero := by
  refine ⟨fun cfg w hhi hlo => ⟨?_, crc16_whole cfg w⟩, by decide +kernel, by decide +kernel⟩
  have hwhole := crc16_whole cfg (w ++ [(crcRegs cfg w).hi, (crcRegs cfg w).lo])
  rw [crcRegs_append_own hhi hlo, List.length_append] at hwhole
  exact hwhole

/-! ### The bit-by-bit CRC -/

/-- One bit of the reflected CRC with polynomial `0xA001` (R105). -/
def modbusBitStep (c : Word16) : Word16 := if c.getLsbD 0 then (c >>> 1) ^^^ 0xA001 else c >>> 1

/-- One byte of the reflected CRC, bit by bit (R105). -/
def modbusByteStep (c : Word16) (b : Byte) : Word16 := Nat.repeat modbusBitStep 8 (c ^^^ b.setWidth 16)

/-- The registers as the reflected CRC holds them: `crc_hi` is its low byte (R105). -/
def CrcRegs.swapped (r : CrcRegs) : Word16 := be16 r.lo r.hi

theorem modbusBitStep_xor (x y : Word16) : modbusBitStep (x ^^^ y) = modbusBitStep x ^^^ modbusBitStep y := by
  have hshift : (x ^^^ y) >>> 1 = x >>> 1 ^^^ y >>> 1 := BitVec.ushiftRight_xor_distrib x y 1
  unfold modbusBitStep
  rw [BitVec.getLsbD_xor, hshift]
  cases x.getLsbD 0 <;> cases y.getLsbD 0
  · simp
  · simp [BitVec.xor_assoc]
  · simp only [Bool.xor_false, if_true, Bool.false_eq_true, if_false]
    rw [BitVec.xor_assoc, BitVec.xor_comm (y >>> 1), BitVec.xor_assoc]
  · simp only [Bool.xor_true, Bool.not_true, Bool.false_eq_true, if_true, if_false]
    rw [BitVec.xor_comm (y >>> 1), ← BitVec.xor_assoc, BitVec.xor_assoc (x >>> 1), BitVec.xor_self, BitVec.xor_zero]

theorem repeat_modbusBitStep_xor (k : Nat) (x y : Word16) :
    Nat.repeat modbusBitStep k (x ^^^ y) = Nat.repeat modbusBitStep k x ^^^ Nat.repeat modbusBitStep k y := by
  induction k with
  | zero => rfl
  | succ k ih => simp only [Nat.repeat, ih, modbusBitStep_xor]

theorem be16_getLsbD (b0 b1 : Byte) (i : Nat) :
    (be16 b0 b1).getLsbD i = if i < 8 then b1.getLsbD i else b0.getLsbD (i - 8) := BitVec.getLsbD_append

theorem be16_xor (a b c d : Byte) : be16 a b ^^^ be16 c d = be16 (a ^^^ c) (b ^^^ d) := by
  apply BitVec.eq_of_getLsbD_eq
  intro i _
  rw [BitVec.getLsbD_xor, be16_getLsbD, be16_getLsbD, be16_getLsbD]
  by_cases hlow : i < 8
  · simp only [hlow, if_true, BitVec.getLsbD_xor]
  · simp only [hlow, if_false, BitVec.getLsbD_xor]

/-- Eight bit steps move the high byte down: no bit of it is shifted out. -/
theorem repeat_modbusBitStep_high (h : Byte) : Nat.repeat modbusBitStep 8 (be16 h 0) = be16 0 h := by
  revert h; decide +kernel

/-- The default tables hold, byte by byte and with its two bytes swapped, what eight bit steps make of the low byte (R56,
R57; log 5). -/
theorem repeat_modbusBitStep_low (l : Byte) :
    Nat.repeat modbusBitStep 8 (be16 0 l) =
      be16 (tableRead defaultConfig.loTable l) (tableRead defaultConfig.hiTable l) := by
  revert l; decide +kernel

/-- The byte step of the engine is that of the reflected CRC: by linearity its high and its low byte pass the eight bit steps
apart. -/
theorem modbusByteStep_swapped {cfg : Config} (hhi : cfg.hiTable = defaultConfig.hiTable)
    (hlo : cfg.loTable = defaultConfig.loTable) (r : CrcRegs) (b : Byte) :
    modbusByteStep r.swapped b = (crcStep cfg r b).swapped := by
  have hwide : b.setWidth 16 = be16 0 b := by revert b; decide
  have hsplit : r.swapped ^^^ b.setWidth 16 = be16 r.lo 0 ^^^ be16 0 (r.hi ^^^ b) := by
    simp [CrcRegs.swapped, hwide, be16_xor]
  rw [modbusByteStep, hsplit, repeat_modbusBitStep_xor, repeat_modbusBitStep_high, repeat_modbusBitStep_low, be16_xor]
  simp [CrcRegs.swapped, crcStep, hhi, hlo]

/-- Settles O53: the two folds run in step, the registers swapped. -/
theorem defaultTablesComputeModbusCrc : Obligations.DefaultTablesComputeModbusCrc := by
  unfold Obligations.DefaultTablesComputeModbusCrc
  intro bitStep byteStep cfg w hhi hlo
  have hfold : w.foldl byteStep 0xFFFF = (crcRegs cfg w).swapped :=
    List.foldl_hom CrcRegs.swapped (init := crcSeed) (modbusByteStep_swapped hhi hlo)
  rw [hfold, crc16_whole, CrcRegs.swapped, highByte_be16, lowByte_be16, CrcRegs.value]

/-- Settles O54: no byte leaves the seed; the five buffers by running the engine. -/
theorem crcCornerValues : Obligations.CrcCornerValues := by
  refine ⟨fun cfg buffer => ?_, by decide +kernel, by decide +kernel, by decide +kernel, by decide +kernel,
    by decide +kernel⟩
  rw [crc16_of_le cfg (Nat.zero_le _), List.take_zero, crcRegs_nil]
  rfl

/-! ### The checksum -/

theorem windowSum_eq_sum (buffer : Buffer) : windowSum buffer = (buffer.take 299).sum := List.sum_eq_foldl.symm

/-- Offset 299, the stored checksum itself, lies outside the window (R110). -/
theorem windowSum_set_299 (b : Buffer) (x : Byte) : windowSum (b.set 299 x) = windowSum b := by
  rw [windowSum, List.take_set, List.set_eq_of_length_le (by simp), windowSum]

theorem windowSum_set_add {b : Buffer} {i : Nat} {old : Byte} (d : Byte) (hi : i < 299) (hold : readByte b i = some old) :
    windowSum (b.set i (old + d)) = windowSum b + d := by
  obtain ⟨hlen, hget⟩ := List.getElem?_eq_some_iff.mp hold
  have hwindow : i < (b.take 299).length := by rw [List.length_take]; omega
  rw [windowSum_eq_sum, windowSum_eq_sum, List.take_set, List.sum_set', dif_pos hwindow, List.getElem_take, hget,
    neg_add_cancel_left]

/-- Settles O55: the checksum is the sum of the window in the commutative group of bytes. -/
theorem checksumCoverage : Obligations.ChecksumCoverage := by
  refine ⟨fun b c hb hc hperm => ?_, fun b i old d hb hi hold => ⟨?_, csum_of_le hb⟩, fun b x hb => ?_⟩
  · rw [csum_of_le hb, csum_of_le hc, windowSum_eq_sum, windowSum_eq_sum, hperm.sum_eq]
  · rw [csum_of_le (by rwa [List.length_set]), windowSum_set_add d hi hold]
  · rw [csum_of_le (by rwa [List.length_set]), csum_of_le hb, windowSum_set_299]

end Sys2Proof.Machine
end

section
/-! PROOFS. `spec/43_frame_validator.md` R195, `spec/70_reset_and_hazards.md` R271, `spec/30_encoding.md` R88,
`spec/60_exceptions.md` R221: trailing bytes of a frame, the split of a `SEND`, the event codes. -/

namespace Sys2Proof.Machine

/-! ### Trailing bytes -/

theorem windowSum_append {frame : Buffer} (h : 299 ≤ frame.length) (tail : Buffer) :
    windowSum (frame ++ tail) = windowSum frame := by
  rw [windowSum, List.take_append_of_le_length h, windowSum]

/-- Settles O57: every byte the validator reads, and the window it sums, lies in the first 300 bytes. -/
theorem trailingBytesUnread : Obligations.TrailingBytesUnread := by
  intro frame tail ctx hlen
  obtain ⟨stored, typeByte, sourceByte, hstored, htype, hsource, -⟩ := validation_long hlen ctx
  have hread : ∀ i b, readByte frame i = some b → readByte (frame ++ tail) i = some b := fun i b h => by
    rwa [readByte_append_left _ _ _ (lt_length_of_readByte h)]
  have hlong : 300 ≤ (frame ++ tail).length := by rw [List.length_append]; omega
  rw [validation_of_bytes hlen hstored htype hsource,
    validation_of_bytes hlong (hread _ _ hstored) (hread _ _ htype) (hread _ _ hsource), windowSum_append (by omega)]
  by_cases hsum : stored = windowSum frame
  · simp only [hsum, ne_eq, not_true, if_false]
    refine ⟨fun rtype source d => by simp [typeAndSource_eq_frameValid_iff], fun why => ?_⟩
    unfold typeAndSource
    cases recordTypeOf typeByte <;> simp
  · simp [hsum]

/-! ### The split of a `SEND` -/

theorem splitBytes_pieces {bytes : Buffer} {sizes : List Nat} {pieces : List Buffer}
    (h : splitBytes bytes sizes = some pieces) : pieces.flatten = bytes ∧ pieces.map List.length = sizes := by
  induction sizes generalizing bytes pieces with
  | nil =>
    by_cases hbytes : bytes = []
    · rw [splitBytes, if_pos hbytes] at h
      cases h
      exact ⟨hbytes.symm, rfl⟩
    · rw [splitBytes, if_neg hbytes] at h; cases h
  | cons k ks ih =>
    by_cases hk : k ≤ bytes.length
    · rw [splitBytes, if_pos hk] at h
      obtain ⟨tail, htail, rfl⟩ := Option.map_eq_some_iff.mp h
      obtain ⟨hflat, hsizes⟩ := ih htail
      exact ⟨by rw [List.flatten_cons, hflat, List.take_append_drop], by
        rw [List.map_cons, hsizes, List.length_take, Nat.min_eq_left hk]⟩
    · rw [splitBytes, if_neg hk] at h; cases h

theorem splitBytes_isSome_iff (bytes : Buffer) (sizes : List Nat) :
    (splitBytes bytes sizes).isSome = true ↔ sizes.sum = bytes.length := by
  induction sizes generalizing bytes with
  | nil => cases bytes <;> simp [splitBytes]
  | cons k ks ih =>
    by_cases hk : k ≤ bytes.length
    · rw [splitBytes, if_pos hk, Option.isSome_map, ih, List.sum_cons, List.length_drop]
      omega
    · rw [splitBytes, if_neg hk, List.sum_cons]
      exact iff_of_false (by simp) (by omega)

/-- Settles O59, both parts by induction on the sizes. -/
theorem sendSplitsBytes : Obligations.SendSplitsBytes := fun bytes sizes =>
  ⟨fun _ => splitBytes_pieces, splitBytes_isSome_iff bytes sizes⟩

/-! ### Event codes -/

theorem eventCodesDefault_getElem (row : Fin 11) : defaultConfig.eventCodes[row] = row.val + 1 := by
  revert row; decide

theorem Event.code_default (e : Event) : e.code defaultConfig = e.codeRow.val + 1 := eventCodesDefault_getElem _

theorem Event.codeRow_le (e : Event) : e.codeRow.val ≤ 8 := by
  unfold Event.codeRow
  split
  case h_7 x => cases x.crcOk <;> decide
  all_goals decide

/-- Settles O60: a default code is the row of R221 counted from 1. -/
theorem defaultEventCodes : Obligations.DefaultEventCodes := by
  refine ⟨fun e => ?_, fun f x t src d a b => ?_, fun _ => rfl⟩
  · have := e.codeRow_le
    rw [Event.code_default]
    omega
  · simp only [Event.code_default]
    refine ⟨rfl, rfl, rfl, rfl, rfl, rfl, ?_, rfl⟩
    cases hok : x.crcOk <;> simp [Event.codeRow, hok]

end Sys2Proof.Machine
end

section
/-! PROOFS. `spec/41_frame_reassembler.md` R138, R141, R146, `spec/44_system_ops.md` R210 to R214: a step as the run of its
decoded operation, what `CHUNK` answers class by class, and what is refused. -/

namespace Sys2Proof.Machine

/-! ### One step -/

/-- Settles O9: fetching from a queue with an operation takes its head. -/
theorem stepRunsDecodedOperation : Obligations.StepRunsDecodedOperation := by
  intro s op waiting hin
  rw [step, State.fetch_cons hin]

/-- Settles O10: there is nothing to fetch. -/
theorem nothingPresentedNothingChanges : Obligations.NothingPresentedNothingChanges := by
  intro s hin
  rw [step, State.fetch_nil hin]

/-- Settles O11, field by field. -/
theorem resetLeavesIdleEmpty : Obligations.ResetLeavesIdleEmpty := fun _ => ⟨rfl, rfl, rfl, rfl, rfl, rfl⟩

/-- Settles O12: the reset state is `Idle` and cleared. -/
theorem resetSatisfiesInvariant : Obligations.ResetSatisfiesInvariant := fun _ =>
  State.inv_iff.mpr (.inl ⟨rfl, rfl, rfl⟩)

/-- Settles O49: `RESET` is the clear of the three registers alone. -/
theorem resetIsSilent : Obligations.ResetIsSilent := fun _ => rfl

/-- Settles O50: the result is the triple of the registers, the first as its bit. -/
theorem statusReadsRegisters : Obligations.StatusReadsRegisters := by
  intro s
  have hstatus : exec .status s = .next { s with result := .status s.fsm.bit s.rem s.acc.length } := rfl
  refine ⟨fun hfsm => ?_, fun hfsm => ?_⟩
  · rw [hstatus, hfsm]; rfl
  · rw [hstatus, hfsm]; rfl

/-- Settles O42: the arms of `CHUNK` are those of `exec`. -/
theorem chunkRunsItsClass : Obligations.ChunkRunsItsClass := fun s bytes ctx => (exec_toInstr _ s bytes ctx rfl).symm

/-! ### Delivery -/

/-- Every class instruction is the delivery of its bytes to its class. -/
theorem exec_eq_deliver {i : Instr} {cls : ChunkClass} {bytes : Buffer} (hcls : i.cls = some cls)
    (hwire : i.wire = some bytes) (s : State) : ∃ operation, exec i s = s.deliver cls bytes operation := by
  cases i <;> cases hcls <;> cases hwire <;> exact ⟨_, rfl⟩

/-- Settles O51: the delivery checks the class before it runs anything. -/
theorem classOutsideItsStateRefused : Obligations.ClassOutsideItsStateRefused := by
  intro s i cls bytes hcls hwire hlen hother
  obtain ⟨operation, hexec⟩ := exec_eq_deliver hcls hwire s
  rw [hexec, State.deliver, if_neg (by simp [hlen]), if_neg hother]

theorem ChunkOp.toInstr_cls (c : ChunkOp) : c.toInstr.cls = some c.cls := by cases c <;> rfl

/-- A chunk longer than `MAX_CHUNK_LEN` is refused whatever its class (R146). -/
theorem execChunk_of_long {s : State} {bytes : Buffer} (ctx : DevId)
    (hlen : withinBound s.cfg.maxChunkLen bytes.length = false) : execChunk bytes ctx s = .refused .chunkTooLong := by
  obtain ⟨operation, hexec⟩ := exec_eq_deliver (ChunkOp.toInstr_cls _)
    ((ChunkOp.toInstr_wire _).trans (congrArg some (decodeChunk_wire s.cfg.magic3Mask s.fsm bytes ctx))) s
  rw [← exec_toInstr _ s bytes ctx rfl, hexec, State.deliver_of_long _ hlen]

/-! ### `CHUNK`, class by class -/

/-- What `CHUNK` answers, under every context, on a chunk of a class (R138, R214): the rows of the transition table, the two
starts and the fragment through the operation they run. -/
def ChunkMeans (s : State) (bytes : Buffer) : ChunkClass → Prop
  | .empty => bytes = [] ∧ ∀ ctx, execChunk bytes ctx s = .next { s with result := .nothing }
  | .frameStart => s.fsm = .idle ∧ ∃ n, fragmentCount bytes = some n ∧
      ∀ ctx, execChunk bytes ctx s = s.startFrame n bytes ctx
  | .frameRestart => s.fsm = .assembling ∧ ∃ n, fragmentCount bytes = some n ∧
      ∀ ctx, execChunk bytes ctx s = ((s.emit (.assemblyAbandoned s.acc)).clearAssembly).startFrame n bytes ctx
  | .fragment => s.fsm = .assembling ∧ ∀ ctx, execChunk bytes ctx s = execFragment bytes ctx s
  | .mbWriteReq => s.fsm = .idle ∧ ∃ x, ∀ ctx,
      execChunk bytes ctx s = .next { s with result := .nothing, events := s.events ++ [.modbusExchange x] }
  | .mbWriteRsp => s.fsm = .idle ∧ ∃ x, ∀ ctx,
      execChunk bytes ctx s = .next { s with result := .nothing, events := s.events ++ [.modbusExchange x] }
  | .unrecognized => s.fsm = .idle ∧ ∀ ctx,
      execChunk bytes ctx s = .next { s with result := .nothing, events := s.events ++ [.unrecognized bytes] }

theorem execChunk_frameStart {s : State} {n : Nibble} (rest : Buffer) (ctx : DevId) (hfsm : s.fsm = .idle)
    (hadmits : admitsCount s.cfg.magic3Mask n = true) :
    execChunk (frameWire n rest) ctx s = execFrameStart n rest ctx s := by
  rw [execChunk, hfsm, decodeChunk_frameWire hadmits]

theorem execChunk_frameRestart {s : State} {n : Nibble} (rest : Buffer) (ctx : DevId) (hfsm : s.fsm = .assembling)
    (hadmits : admitsCount s.cfg.magic3Mask n = true) :
    execChunk (frameWire n rest) ctx s = execFrameRestart n rest ctx s := by
  rw [execChunk, hfsm, decodeChunk_frameWire hadmits]

theorem execChunk_fragment {s : State} {bytes : Buffer} (ctx : DevId) (hfsm : s.fsm = .assembling) (hne : bytes ≠ [])
    (hmagic : isMagic s.cfg.magic3Mask bytes = false) : execChunk bytes ctx s = execFragment bytes ctx s := by
  rw [execChunk, hfsm, decodeChunk_fragment hne hmagic]

theorem execChunk_unrecognized {s : State} {raw : Buffer} (ctx : DevId) (hfsm : s.fsm = .idle) (hne : raw ≠ [])
    (hmagic : isMagic s.cfg.magic3Mask raw = false) (hmodbus : isModbus raw = false) :
    execChunk raw ctx s = execUnrecognized raw s := by
  rw [execChunk, hfsm, decodeChunk_unrecognized hne hmagic hmodbus]

/-- A chunk within `MAX_CHUNK_LEN` means what its class means. -/
theorem chunkMeans_classOf {s : State} {bytes : Buffer} (hlen : withinBound s.cfg.maxChunkLen bytes.length = true) :
    ChunkMeans s bytes (s.classOf bytes) := by
  rw [State.classOf_eq, ← decodeChunk_cls _ _ _ 0]
  rcases decodeChunk_cases s.cfg.magic3Mask s.fsm bytes 0 with ⟨rfl, hd⟩ | ⟨hfsm, n, rest, rfl, hadmits, hd⟩ |
    ⟨hfsm, n, rest, rfl, hadmits, hd⟩ | ⟨hfsm, hne, hmagic, hd⟩ |
    ⟨hfsm, unit, addr, qty, wbc, d0, d1, d2, d3, rfl, hd⟩ | ⟨hfsm, unit, addr, qty, crc, rfl, hd⟩ |
    ⟨hfsm, hne, hmagic, hmodbus, hd⟩
  all_goals rw [hd]
  case inl => exact ⟨rfl, fun _ => emptyChangesNothing s⟩
  case inr.inl =>
    exact ⟨hfsm, n, fragmentCount_frameWire n rest, fun ctx =>
      (execChunk_frameStart rest ctx hfsm hadmits).trans (execFrameStart_eq_startFrame ctx hfsm hadmits hlen)⟩
  case inr.inr.inl =>
    exact ⟨hfsm, n, fragmentCount_frameWire n rest, fun ctx =>
      (execChunk_frameRestart rest ctx hfsm hadmits).trans (execFrameRestart_eq_startFrame ctx hfsm hadmits hlen)⟩
  case inr.inr.inr.inl => exact ⟨hfsm, fun ctx => execChunk_fragment ctx hfsm hne hmagic⟩
  case inr.inr.inr.inr.inl =>
    exact ⟨hfsm, _, fun ctx => (execChunk_mbReqWire unit addr qty wbc d0 d1 d2 d3 ctx hfsm).trans
      (execMbWriteReq_eq unit addr qty wbc d0 d1 d2 d3 hfsm hlen)⟩
  case inr.inr.inr.inr.inr.inl =>
    exact ⟨hfsm, _, fun ctx => (execChunk_mbRspWire unit addr qty crc ctx hfsm).trans
      (execMbWriteRsp_eq unit addr qty crc hfsm hlen)⟩
  case inr.inr.inr.inr.inr.inr =>
    exact ⟨hfsm, fun ctx => (execChunk_unrecognized ctx hfsm hne hmagic hmodbus).trans
      (execUnrecognized_eq hfsm hne hmagic hmodbus hlen)⟩

theorem chunkMeans_of_classOf {s : State} {bytes : Buffer} {cls : ChunkClass} (hcls : s.classOf bytes = cls)
    (hlen : withinBound s.cfg.maxChunkLen bytes.length = true) : ChunkMeans s bytes cls :=
  hcls ▸ chunkMeans_classOf hlen

/-! ### The transition table -/

/-- Settles O31, row by row. -/
theorem transitionTable : Obligations.TransitionTable := by
  refine ⟨fun s bytes ctx hinv hunbounded hctx => ?_, resetIsSilent⟩
  obtain ⟨hcapNone, hlenNone⟩ := hunbounded
  have hcap : ∀ len, withinBound s.cfg.accCapacity len = true := by simp [hcapNone]
  have hlen : ∀ len, withinBound s.cfg.maxChunkLen len = true := by simp [hlenNone]
  have hfits : s.CountFits := lt_of_countInRange hinv.2.2
  refine ⟨fun hcls => ?empty, fun n hcls hcount hn => ?start, fun hcls hcount => ?startWhole, fun hcls => ?modbus,
    fun hcls => ?unrecognized, fun hcls hrem => ?fragment, fun hcls hrem => ?fragmentLast,
    fun n hcls hcount hn => ?restart, fun hcls hcount => ?restartWhole⟩
  case empty =>
    obtain ⟨-, h⟩ := chunkMeans_of_classOf hcls (hlen _)
    exact h ctx
  case start =>
    obtain ⟨-, m, hm, h⟩ := chunkMeans_of_classOf hcls (hlen _)
    obtain rfl : n = m := Option.some.inj (hcount.symm.trans hm)
    rw [exec, h ctx, State.startFrame_of_admitted n hctx (hcap _), if_neg hn]
  case startWhole =>
    obtain ⟨-, m, hm, h⟩ := chunkMeans_of_classOf hcls (hlen _)
    obtain rfl : 0 = m := Option.some.inj (hcount.symm.trans hm)
    rw [exec, h ctx, State.startFrame_of_admitted 0 hctx (hcap _), if_pos rfl]
  case modbus =>
    have hmeans : s.fsm = .idle ∧ ∃ x, ∀ ctx, execChunk bytes ctx s =
        .next { s with result := .nothing, events := s.events ++ [.modbusExchange x] } :=
      hcls.elim (chunkMeans_of_classOf · (hlen _)) (chunkMeans_of_classOf · (hlen _))
    obtain ⟨hfsm, x, h⟩ := hmeans
    obtain ⟨hacc, hrem⟩ := hinv.1 hfsm
    exact ⟨x, by rw [exec, h ctx, hfsm, hacc, hrem]⟩
  case unrecognized =>
    obtain ⟨hfsm, h⟩ := chunkMeans_of_classOf hcls (hlen _)
    obtain ⟨hacc, hrem⟩ := hinv.1 hfsm
    rw [exec, h ctx, hfsm, hacc, hrem]
  case fragment =>
    obtain ⟨-, h⟩ := chunkMeans_of_classOf hcls (hlen _)
    rw [exec, h ctx, execFragment_of_admitted hcls (by omega) hfits hctx (hlen _) (hcap _), if_neg (by omega)]
  case fragmentLast =>
    obtain ⟨-, h⟩ := chunkMeans_of_classOf hcls (hlen _)
    rw [exec, h ctx, execFragment_of_admitted hcls (by omega) hfits hctx (hlen _) (hcap _), if_pos hrem]
  case restart =>
    obtain ⟨-, m, hm, h⟩ := chunkMeans_of_classOf hcls (hlen _)
    obtain rfl : n = m := Option.some.inj (hcount.symm.trans hm)
    rw [exec, h ctx, State.restartFrame_of_admitted n hctx (hcap _), if_neg hn]
  case restartWhole =>
    obtain ⟨-, m, hm, h⟩ := chunkMeans_of_classOf hcls (hlen _)
    obtain rfl : 0 = m := Option.some.inj (hcount.symm.trans hm)
    rw [exec, h ctx, State.restartFrame_of_admitted 0 hctx (hcap _), if_pos rfl]

/-! ### Refusals (R146, R34) -/

/-- The length `acc` would have after a chunk, for the classes that store it; none for the others. -/
def State.storedLength (s : State) (bytes : Buffer) : Option Nat :=
  match s.classOf bytes with
  | .frameStart => some bytes.length
  | .frameRestart => some bytes.length
  | .fragment => some (s.acc.length + bytes.length)
  | .empty => none
  | .mbWriteReq => none
  | .mbWriteRsp => none
  | .unrecognized => none

/-- Why `CHUNK` is refused, if it is: the length of the chunk, then the width of the context, then the capacity of `acc`,
the last two for the classes that store the chunk (R146, R34). -/
def State.refusal (s : State) (bytes : Buffer) (ctx : DevId) : Option Refusal :=
  if withinBound s.cfg.maxChunkLen bytes.length = false then some .chunkTooLong
  else (s.storedLength bytes).bind fun len =>
    if fitsDevId s.cfg.devIdWidth ctx = false then some .contextTooWide
    else if withinBound s.cfg.accCapacity len = false then some .accCapacityExceeded
    else none

/-- An outcome is the refusal for the reason given, or a next state where none is given. -/
def RefusedAs (reason : Option Refusal) (o : Outcome) : Prop :=
  match reason with
  | some r => o = .refused r
  | none => ∃ t, o = .next t

theorem RefusedAs.refused_iff {reason : Option Refusal} {o : Outcome} (h : RefusedAs reason o) (r : Refusal) :
    o = .refused r ↔ reason = some r := by
  cases reason with
  | some r' => rw [show o = .refused r' from h]; simp
  | none => obtain ⟨t, rfl⟩ := h; simp

theorem State.startFrame_refusedAs (s : State) (n : Nibble) (chunk : Buffer) (ctx : DevId) :
    RefusedAs
      (if fitsDevId s.cfg.devIdWidth ctx = false then some .contextTooWide
       else if withinBound s.cfg.accCapacity chunk.length = false then some .accCapacityExceeded
       else none)
      (s.startFrame n chunk ctx) := by
  rw [State.startFrame_eq]
  split_ifs
  · rfl
  · rfl
  · exact ⟨_, rfl⟩
  · exact ⟨_, rfl⟩

theorem execFragment_refusedAs {s : State} {bytes : Buffer} (ctx : DevId)
    (hlen : withinBound s.cfg.maxChunkLen bytes.length = true) (hcls : s.classOf bytes = .fragment) :
    RefusedAs
      (if fitsDevId s.cfg.devIdWidth ctx = false then some .contextTooWide
       else if withinBound s.cfg.accCapacity (s.acc.length + bytes.length) = false then some .accCapacityExceeded
       else none)
      (execFragment bytes ctx s) := by
  rw [execFragment_eq ctx hlen hcls]
  split_ifs
  · rfl
  · rfl
  · exact ⟨_, rfl⟩
  · exact ⟨_, rfl⟩

theorem execChunk_refusedAs (s : State) (bytes : Buffer) (ctx : DevId) :
    RefusedAs (s.refusal bytes ctx) (execChunk bytes ctx s) := by
  cases hlen : withinBound s.cfg.maxChunkLen bytes.length with
  | false =>
    rw [State.refusal, if_pos hlen]
    exact execChunk_of_long ctx hlen
  | true =>
    rw [State.refusal, if_neg (by simp [hlen]), State.storedLength]
    have hmeans := chunkMeans_classOf hlen
    cases hcls : s.classOf bytes <;> rw [hcls] at hmeans
    case empty => exact ⟨_, hmeans.2 ctx⟩
    case frameStart =>
      obtain ⟨-, n, -, h⟩ := hmeans
      rw [h ctx]
      exact s.startFrame_refusedAs n bytes ctx
    case frameRestart =>
      obtain ⟨-, n, -, h⟩ := hmeans
      rw [h ctx]
      exact State.startFrame_refusedAs (State.emit (.assemblyAbandoned s.acc) s).clearAssembly n bytes ctx
    case fragment =>
      rw [hmeans.2 ctx]
      exact execFragment_refusedAs ctx hlen hcls
    case mbWriteReq => obtain ⟨-, x, h⟩ := hmeans; exact ⟨_, h ctx⟩
    case mbWriteRsp => obtain ⟨-, x, h⟩ := hmeans; exact ⟨_, h ctx⟩
    case unrecognized => exact ⟨_, hmeans.2 ctx⟩

/-! ### What the refusals mean -/

theorem State.refusal_eq_chunkTooLong_iff {s : State} {bytes : Buffer} {ctx : DevId} :
    s.refusal bytes ctx = some .chunkTooLong ↔ withinBound s.cfg.maxChunkLen bytes.length = false := by
  cases hlen : withinBound s.cfg.maxChunkLen bytes.length with
  | false => simp [State.refusal, hlen]
  | true =>
    cases hstored : s.storedLength bytes with
    | none => simp [State.refusal, hlen, hstored]
    | some len =>
      simp only [State.refusal, hlen, hstored, Bool.true_eq_false, if_false, Option.bind_some, iff_false]
      split_ifs <;> simp

theorem State.refusal_eq_contextTooWide_iff {s : State} {bytes : Buffer} {ctx : DevId} :
    s.refusal bytes ctx = some .contextTooWide ↔
      withinBound s.cfg.maxChunkLen bytes.length = true ∧ (s.storedLength bytes).isSome = true ∧
        fitsDevId s.cfg.devIdWidth ctx = false := by
  cases hlen : withinBound s.cfg.maxChunkLen bytes.length with
  | false => simp [State.refusal, hlen]
  | true =>
    cases hstored : s.storedLength bytes with
    | none => simp [State.refusal, hlen, hstored]
    | some len =>
      cases hctx : fitsDevId s.cfg.devIdWidth ctx with
      | false => simp [State.refusal, hlen, hstored, hctx]
      | true => simp [State.refusal, hlen, hstored, hctx]

theorem State.refusal_eq_accCapacityExceeded_iff {s : State} {bytes : Buffer} {ctx : DevId} :
    s.refusal bytes ctx = some .accCapacityExceeded ↔
      withinBound s.cfg.maxChunkLen bytes.length = true ∧ fitsDevId s.cfg.devIdWidth ctx = true ∧
        ∃ len, s.storedLength bytes = some len ∧ withinBound s.cfg.accCapacity len = false := by
  cases hlen : withinBound s.cfg.maxChunkLen bytes.length with
  | false => simp [State.refusal, hlen]
  | true =>
    cases hstored : s.storedLength bytes with
    | none => simp [State.refusal, hlen, hstored]
    | some len =>
      cases hctx : fitsDevId s.cfg.devIdWidth ctx with
      | false => simp [State.refusal, hlen, hstored, hctx]
      | true => simp [State.refusal, hlen, hstored, hctx]

theorem State.refusal_cases (s : State) (bytes : Buffer) (ctx : DevId) :
    s.refusal bytes ctx = none ∨ s.refusal bytes ctx = some .chunkTooLong ∨
      s.refusal bytes ctx = some .contextTooWide ∨ s.refusal bytes ctx = some .accCapacityExceeded := by
  unfold State.refusal
  cases s.storedLength bytes with
  | none => rw [Option.bind_none]; split_ifs <;> simp
  | some len => rw [Option.bind_some]; split_ifs <;> simp

/-- With unbounded buffers an admissible context leaves nothing to refuse. -/
theorem State.refusal_eq_none {s : State} {ctx : DevId} (hunbounded : Unbounded s.cfg)
    (hctx : fitsDevId s.cfg.devIdWidth ctx = true) (bytes : Buffer) : s.refusal bytes ctx = none := by
  obtain ⟨hcap, hlen⟩ := hunbounded
  unfold State.refusal
  cases s.storedLength bytes <;> simp [hcap, hlen, hctx]

theorem execChunk_completes {s : State} {ctx : DevId} (hunbounded : Unbounded s.cfg)
    (hctx : fitsDevId s.cfg.devIdWidth ctx = true) (bytes : Buffer) : ∃ t, execChunk bytes ctx s = .next t := by
  have h := execChunk_refusedAs s bytes ctx
  rwa [State.refusal_eq_none hunbounded hctx] at h

/-- Settles O43: nothing is refused, and what is not refused answers a next state. -/
theorem chunkCompletes : Obligations.ChunkCompletes := by
  intro s bytes ctx hunbounded hctx
  obtain ⟨t, ht⟩ := execChunk_completes hunbounded hctx bytes
  obtain ⟨hcfg, hinput⟩ := execChunk_cfg_input ht
  exact ⟨t, ht, hcfg, hinput, execChunk_result ht⟩

theorem step_validate {s : State} {frame : Buffer} {ctx : DevId} {waiting : List Operation}
    (hin : s.input = .validate frame ctx :: waiting) :
    step s = exec (.validate frame ctx) { s with input := waiting } := stepRunsDecodedOperation s _ _ hin

/-- A step on anything but a chunk or a `VALIDATE` completes in every build. -/
theorem step_completes_of_no_context {s : State} (hchunk : ∀ bytes ctx waiting, s.input ≠ .chunk bytes ctx :: waiting)
    (hvalidate : ∀ frame ctx waiting, s.input ≠ .validate frame ctx :: waiting) : ∃ t, step s = .next t := by
  cases hin : s.input with
  | nil => exact ⟨s, nothingPresentedNothingChanges s hin⟩
  | cons op waiting =>
    rw [stepRunsDecodedOperation s op waiting hin]
    cases op with
    | chunk bytes ctx => exact absurd hin (hchunk bytes ctx waiting)
    | validate frame ctx => exact absurd hin (hvalidate frame ctx waiting)
    | crc16 buffer length => exact ⟨_, rfl⟩
    | csum buffer => exact ⟨_, rfl⟩
    | reset => exact ⟨_, rfl⟩
    | status => exact ⟨_, rfl⟩

/-- Settles O17: a chunk and a `VALIDATE` under a context that fits complete, and so does everything else. -/
theorem unboundedBuildNeverStops : Obligations.UnboundedBuildNeverStops := by
  intro s hunbounded hhead
  by_cases hchunk : ∃ bytes ctx waiting, s.input = .chunk bytes ctx :: waiting
  · obtain ⟨bytes, ctx, waiting, hin⟩ := hchunk
    rw [hin] at hhead
    rw [step_chunk hin]
    exact execChunk_completes (s := { s with input := waiting }) hunbounded hhead bytes
  · by_cases hvalidate : ∃ frame ctx waiting, s.input = .validate frame ctx :: waiting
    · obtain ⟨frame, ctx, waiting, hin⟩ := hvalidate
      rw [hin] at hhead
      rw [step_validate hin]
      exact ⟨_, exec_validate_of_fits (s := { s with input := waiting }) frame hhead⟩
    · exact step_completes_of_no_context (fun b c w h => hchunk ⟨b, c, w, h⟩) (fun f c w h => hvalidate ⟨f, c, w, h⟩)

/-- Settles O18: a chunk by its refusal, a `VALIDATE` by its context; nothing else can stop a step. -/
theorem refusedExactlyOverCapacity : Obligations.RefusedExactlyOverCapacity := by
  refine ⟨?chunk, ?validate, fun s => step_completes_of_no_context⟩
  case chunk =>
    intro s bytes ctx waiting hin stored
    have hrefused : RefusedAs (s.refusal bytes ctx) (step s) := by
      rw [step_chunk hin]
      exact execChunk_refusedAs { s with input := waiting } bytes ctx
    have hstored : stored = s.storedLength bytes := rfl
    refine ⟨?_, ?_, ?_, ?_⟩
    · rw [hrefused.refused_iff, State.refusal_eq_chunkTooLong_iff, withinBound_eq_false_iff]
    · rw [hrefused.refused_iff, State.refusal_eq_contextTooWide_iff, withinBound_eq_true_iff, fitsDevId_eq_false_iff,
        hstored]
    · simp only [hrefused.refused_iff, State.refusal_eq_accCapacityExceeded_iff, withinBound_eq_true_iff, fitsDevId_iff,
        withinBound_eq_false_iff, hstored]
      exact and_congr_right fun _ => and_congr_right fun _ =>
        ⟨fun ⟨len, hlen, m, hm, hlt⟩ => ⟨m, len, hm, hlen, hlt⟩, fun ⟨m, len, hm, hlen, hlt⟩ => ⟨len, hlen, m, hm, hlt⟩⟩
    · simp only [hrefused.refused_iff]
      exact (s.refusal_cases bytes ctx).imp_left fun hnone => by rwa [hnone] at hrefused
  case validate =>
    intro s frame ctx waiting hin
    rw [step_validate hin, ← fitsDevId_eq_false_iff]
    cases hctx : fitsDevId s.cfg.devIdWidth ctx with
    | true => simp [exec_validate_of_fits (s := { s with input := waiting }) frame hctx]
    | false =>
      have hwide : exec (.validate frame ctx) { s with input := waiting } = .refused .contextTooWide :=
        State.takeContext_of_wide _ hctx
      simp [hwide]

end Sys2Proof.Machine
end

section
/-! PROOFS. `spec/60_exceptions.md` R220 to R225, `spec/41_frame_reassembler.md` R139 to R142: the events an operation
appends, how an assembly is left, and a whole assembly. -/

namespace Sys2Proof.Machine

/-! ### What a chunk and a step emit -/

/-- The events a `CHUNK` appends (R138, R142), by the build, the registers before it, its bytes and its context. -/
inductive ChunkEmits (cfg : Config) (fsm : Fsm) (acc bytes : Buffer) (ctx : DevId) : List Event → Prop
  | nothing : ChunkEmits cfg fsm acc bytes ctx []
  | exchange (x : Exchange) (hfsm : fsm = .idle) : ChunkEmits cfg fsm acc bytes ctx [.modbusExchange x]
  | unrecognized (hfsm : fsm = .idle) : ChunkEmits cfg fsm acc bytes ctx [.unrecognized bytes]
  | frame (buf : Buffer) (hctx : fitsDevId cfg.devIdWidth ctx = true) :
      ChunkEmits cfg fsm acc bytes ctx [.frameEmitted buf, validation buf ctx]
  | abandoned (hcls : classify cfg.magic3Mask fsm bytes = .frameRestart) :
      ChunkEmits cfg fsm acc bytes ctx [.assemblyAbandoned acc]
  | abandonedFrame (hcls : classify cfg.magic3Mask fsm bytes = .frameRestart) (hcount : fragmentCount bytes = some 0)
      (hctx : fitsDevId cfg.devIdWidth ctx = true) :
      ChunkEmits cfg fsm acc bytes ctx [.assemblyAbandoned acc, .frameEmitted bytes, validation bytes ctx]

theorem execChunk_emits {s t : State} {bytes : Buffer} {ctx : DevId} (h : execChunk bytes ctx s = .next t) :
    ∃ es, t.events = s.events ++ es ∧ ChunkEmits s.cfg s.fsm s.acc bytes ctx es := by
  obtain ⟨-, ⟨-, rfl⟩ | ⟨n, rest, rfl, hadmits, hctx, -, abandoned, hab, hstart⟩ |
    ⟨-, -, -, hctx, -, ⟨-, rfl⟩ | ⟨-, rfl⟩⟩ | ⟨hfsm, -, -, e, rfl, he⟩⟩ := execChunk_next_cases h
  case inl => exact ⟨[], by simp, .nothing⟩
  case inr.inl =>
    obtain ⟨-, rfl⟩ | ⟨hfsm, rfl⟩ := hab
    · obtain ⟨-, rfl⟩ | ⟨-, rfl⟩ := hstart
      · exact ⟨_, rfl, .frame _ hctx⟩
      · exact ⟨[], rfl, .nothing⟩
    · have hcls : classify s.cfg.magic3Mask s.fsm (frameWire n rest) = .frameRestart := by
        rw [hfsm]; exact classify_frameWire hadmits .assembling rest
      obtain ⟨rfl, rfl⟩ | ⟨-, rfl⟩ := hstart
      · exact ⟨_, rfl, .abandonedFrame hcls (fragmentCount_frameWire 0 rest) hctx⟩
      · exact ⟨_, rfl, .abandoned hcls⟩
  case inr.inr.inl.inl => exact ⟨_, rfl, .frame _ hctx⟩
  case inr.inr.inl.inr => exact ⟨[], by simp, .nothing⟩
  case inr.inr.inr =>
    obtain ⟨x, rfl⟩ | rfl := he
    · exact ⟨_, rfl, .exchange x hfsm⟩
    · exact ⟨_, rfl, .unrecognized hfsm⟩

/-- The events a step appends: none, the outcome of a direct `VALIDATE`, or those of a chunk. -/
theorem step_emits {s t : State} (h : step s = .next t) :
    ∃ es, t.events = s.events ++ es ∧
      (es = [] ∨ (∃ frame ctx, fitsDevId s.cfg.devIdWidth ctx = true ∧ es = [validation frame ctx]) ∨
        ∃ bytes ctx waiting, s.input = .chunk bytes ctx :: waiting ∧ ChunkEmits s.cfg s.fsm s.acc bytes ctx es) := by
  obtain ⟨-, rfl⟩ | ⟨op, waiting, hin, ⟨bytes, ctx, rfl, hchunk⟩ | ⟨_, rfl, -⟩ | ⟨frame, ctx, -, hctx, rfl⟩ | ⟨-, rfl⟩⟩ :=
    step_next_cases h
  case inl => exact ⟨[], by simp, .inl rfl⟩
  case inr.inl =>
    obtain ⟨es, hes, hemits⟩ := execChunk_emits hchunk
    exact ⟨es, hes, .inr (.inr ⟨bytes, ctx, waiting, hin, hemits⟩)⟩
  case inr.inr.inl => exact ⟨[], by simp, .inl rfl⟩
  case inr.inr.inr.inl => exact ⟨_, rfl, .inr (.inl ⟨frame, ctx, hctx, rfl⟩)⟩
  case inr.inr.inr.inr => exact ⟨[], by simp, .inl rfl⟩

/-! ### How many events, and which errors -/

/-- At most three events, at most one finished frame, and after it at once its outcome, the last (R135, R142). -/
def FrameThenOutcome (es : List Event) : Prop :=
  es.length ≤ 3 ∧ es.countP Event.isFrameEmitted ≤ 1 ∧
    (es.countP Event.isFrameEmitted = 1 →
      ∃ before frame outcome, es = before ++ [.frameEmitted frame, outcome] ∧ outcome.isOutcome = true)

theorem FrameThenOutcome.of_no_frame {es : List Event} (hlen : es.length ≤ 3)
    (hnone : es.countP Event.isFrameEmitted = 0) : FrameThenOutcome es :=
  ⟨hlen, by omega, fun hone => by omega⟩

theorem FrameThenOutcome.of_frame {before : List Event} (frame : Buffer) (ctx : DevId) (hlen : before.length ≤ 1)
    (hnone : before.countP Event.isFrameEmitted = 0) :
    FrameThenOutcome (before ++ [.frameEmitted frame, validation frame ctx]) :=
  ⟨by rw [List.length_append]; exact Nat.add_le_add_right hlen 2, by simp [List.countP_cons, hnone],
    fun _ => ⟨before, frame, _, rfl, validation_isOutcome frame ctx⟩⟩

/-- Settles O22, by the kind of events a step emits. -/
theorem stepAppendsAtMostThreeEvents : Obligations.StepAppendsAtMostThreeEvents := by
  intro s t h
  obtain ⟨es, hes, hkind⟩ := step_emits h
  refine ⟨es, hes, ?_⟩
  show FrameThenOutcome es
  obtain rfl | ⟨frame, ctx, -, rfl⟩ | ⟨bytes, ctx, waiting, -, hchunk⟩ := hkind
  · exact .of_no_frame (by simp) rfl
  · exact .of_no_frame (by simp) (by simp)
  · cases hchunk with
    | nothing => exact .of_no_frame (by simp) rfl
    | exchange x => exact .of_no_frame (by simp) rfl
    | unrecognized => exact .of_no_frame (by simp) rfl
    | frame buf => exact .of_frame (before := []) buf ctx (by simp) rfl
    | abandoned => exact .of_no_frame (by simp) rfl
    | abandonedFrame => exact .of_frame (before := [.assemblyAbandoned s.acc]) bytes ctx (by simp) rfl

/-- Settles O23: of the events a step appends, the abandonment and the outcome of the validator alone can be two that
report an error. -/
theorem atMostOneErrorKind : Obligations.AtMostOneErrorKind := by
  intro s t h
  obtain ⟨es, hes, hkind⟩ := step_emits h
  refine ⟨es, hes, ?_⟩
  obtain rfl | ⟨frame, ctx, -, rfl⟩ | ⟨bytes, ctx, waiting, hin, hchunk⟩ := hkind
  · exact .inl (by simp)
  · exact .inl (List.length_filterMap_le _ _)
  · cases hchunk with
    | nothing => exact .inl (by simp)
    | exchange x => exact .inl (List.length_filterMap_le _ _)
    | unrecognized => exact .inl (List.length_filterMap_le _ _)
    | frame buf =>
      have hskip : [.frameEmitted buf, validation buf ctx].filterMap Event.errorKind =
          [validation buf ctx].filterMap Event.errorKind := List.filterMap_cons_none rfl
      exact .inl (hskip ▸ List.length_filterMap_le Event.errorKind [validation buf ctx])
    | abandoned => exact .inl (List.length_filterMap_le _ _)
    | abandonedFrame hcls hcount =>
      cases houtcome : (validation bytes ctx).errorKind with
      | none => exact .inl (by simp [List.filterMap_cons, houtcome])
      | some k => exact .inr ⟨k, bytes, ctx, waiting, hin, hcls, hcount, by simp [List.filterMap_cons, houtcome]⟩

/-- Settles O24: every class answers with nothing. -/
theorem chunkNeverOutOfRange : Obligations.ChunkNeverOutOfRange := fun _ _ _ _ h => execChunk_result h

/-! ### The identifier in an event -/

/-- A reported identifier is 0 or the injected one (R194), and both fit. -/
theorem lt_of_validation_eq_frameValid {width : Nat} {frame g : Buffer} {ctx d : DevId} {rtype : RecordType}
    {source : Source} (hctx : fitsDevId width ctx = true) (h : validation frame ctx = .frameValid g rtype source d) :
    d < 2 ^ width := by
  obtain ⟨-, -, -, -, ⟨-, -, rfl⟩ | ⟨-, -, rfl⟩⟩ := (frameValidExactlyWhen frame g ctx d rtype source).mp h
  · exact Nat.two_pow_pos width
  · exact fitsDevId_iff.mp hctx

/-- Settles O25: the validator's outcome is the one event that names an identifier. -/
theorem reportedIdentifierFitsWidth : Obligations.ReportedIdentifierFitsWidth := by
  intro s t h
  obtain ⟨es, hes, hkind⟩ := step_emits h
  refine ⟨es, hes, fun frame rtype source d hmem => ?_⟩
  obtain rfl | ⟨buf, ctx, hctx, rfl⟩ | ⟨bytes, ctx, waiting, -, hchunk⟩ := hkind
  · cases hmem
  · exact lt_of_validation_eq_frameValid hctx (List.mem_singleton.mp hmem).symm
  · cases hchunk with
    | nothing => cases hmem
    | exchange x => simp at hmem
    | unrecognized => simp at hmem
    | frame buf hctx =>
      have hvalid : .frameValid frame rtype source d = validation buf ctx := by simpa using hmem
      exact lt_of_validation_eq_frameValid hctx hvalid.symm
    | abandoned => simp at hmem
    | abandonedFrame _ _ hctx =>
      have hvalid : .frameValid frame rtype source d = validation bytes ctx := by simpa using hmem
      exact lt_of_validation_eq_frameValid hctx hvalid.symm

/-- The two outcomes of one frame under two contexts differ at most in the identifier of a Slave frame (R194). -/
theorem validation_hideCtx (frame : Buffer) (c d : DevId) :
    (validation frame c).hideCtx = (validation frame d).hideCtx := by
  by_cases hlen : frame.length < 300
  · rw [validation_short hlen, validation_short hlen]
  · obtain ⟨stored, typeByte, sourceByte, hstored, htype, hsource, -⟩ := validation_long (Nat.not_lt.mp hlen) c
    rw [validation_of_bytes (Nat.not_lt.mp hlen) hstored htype hsource,
      validation_of_bytes (Nat.not_lt.mp hlen) hstored htype hsource]
    by_cases hsum : stored = windowSum frame
    · rw [if_neg (not_not.mpr hsum), if_neg (not_not.mpr hsum), typeAndSource, typeAndSource, sourceOf_eq_ite,
        sourceOf_eq_ite]
      cases recordTypeOf typeByte with
      | none => rfl
      | some rtype =>
        by_cases hmaster : sourceByte = 0
        · simp only [if_pos hmaster]
        · simp only [if_neg hmaster]; rfl
    · rw [if_pos hsum, if_pos hsum]

/-- Two states that an observer who cannot see `ctx_device_id` cannot tell apart (R194). -/
def SameButCtx (t u : State) : Prop :=
  t.fsm = u.fsm ∧ t.rem = u.rem ∧ t.acc = u.acc ∧ t.cfg = u.cfg ∧ t.input = u.input ∧ t.result = u.result ∧
    t.events.map Event.hideCtx = u.events.map Event.hideCtx

theorem SameButCtx.of_eq_next {o : Outcome} {t u : State} (ht : o = .next t) (hu : o = .next u) : SameButCtx t u := by
  rw [ht] at hu
  cases hu
  exact ⟨rfl, rfl, rfl, rfl, rfl, rfl, rfl⟩

theorem State.startFrame_sameButCtx {s t u : State} {n : Nibble} {chunk : Buffer} {c d : DevId}
    (ht : s.startFrame n chunk c = .next t) (hu : s.startFrame n chunk d = .next u) : SameButCtx t u := by
  rw [State.startFrame_eq] at ht hu
  split_ifs at ht hu <;> cases ht <;> cases hu
  · exact ⟨rfl, rfl, rfl, rfl, rfl, rfl, by simp [validation_hideCtx chunk c d]⟩
  · exact ⟨rfl, rfl, rfl, rfl, rfl, rfl, rfl⟩

theorem execFragment_sameButCtx {s t u : State} {bytes : Buffer} {c d : DevId}
    (hlen : withinBound s.cfg.maxChunkLen bytes.length = true) (hcls : s.classOf bytes = .fragment)
    (ht : execFragment bytes c s = .next t) (hu : execFragment bytes d s = .next u) : SameButCtx t u := by
  rw [execFragment_eq _ hlen hcls] at ht hu
  split_ifs at ht hu <;> cases ht <;> cases hu
  · exact ⟨rfl, rfl, rfl, rfl, rfl, rfl, by simp [validation_hideCtx (s.acc ++ bytes) c d]⟩
  · exact ⟨rfl, rfl, rfl, rfl, rfl, rfl, rfl⟩

/-- Settles O26: a class that does not take the context on means the same under both; the others hand it to the validator
alone. -/
theorem contextReachesOnlySlaveIdentifier : Obligations.ContextReachesOnlySlaveIdentifier := by
  intro s t u bytes c d ht hu
  have hlen : withinBound s.cfg.maxChunkLen bytes.length = true := (execChunk_next_cases ht).1
  have hmeans := chunkMeans_classOf hlen
  show SameButCtx t u
  rw [exec] at ht hu
  cases hcls : s.classOf bytes <;> rw [hcls] at hmeans
  case empty => exact .of_eq_next (hmeans.2 c ▸ ht) (hmeans.2 d ▸ hu)
  case frameStart =>
    obtain ⟨-, n, -, h⟩ := hmeans
    exact State.startFrame_sameButCtx (h c ▸ ht) (h d ▸ hu)
  case frameRestart =>
    obtain ⟨-, n, -, h⟩ := hmeans
    exact State.startFrame_sameButCtx (h c ▸ ht) (h d ▸ hu)
  case fragment => exact execFragment_sameButCtx hlen hcls (hmeans.2 c ▸ ht) (hmeans.2 d ▸ hu)
  case mbWriteReq =>
    obtain ⟨-, x, h⟩ := hmeans
    exact .of_eq_next (h c ▸ ht) (h d ▸ hu)
  case mbWriteRsp =>
    obtain ⟨-, x, h⟩ := hmeans
    exact .of_eq_next (h c ▸ ht) (h d ▸ hu)
  case unrecognized => exact .of_eq_next (hmeans.2 c ▸ ht) (hmeans.2 d ▸ hu)

/-! ### How an assembly is left -/

/-- The two ways a `CHUNK` leads from `Assembling` to `Idle` (R134, R133). -/
theorem execChunk_exits {s t : State} {bytes : Buffer} {ctx : DevId} (hfsm : s.fsm = .assembling) (hfits : s.CountFits)
    (h : execChunk bytes ctx s = .next t) (hidle : t.fsm = .idle) :
    (s.classOf bytes = .fragment ∧ s.rem = 1) ∨ (s.classOf bytes = .frameRestart ∧ fragmentCount bytes = some 0) := by
  obtain ⟨-, ⟨-, rfl⟩ | ⟨n, rest, rfl, hadmits, -, -, _, -, ⟨rfl, rfl⟩ | ⟨-, rfl⟩⟩ |
    ⟨-, hne, hmagic, -, -, ⟨hcount, rfl⟩ | ⟨-, rfl⟩⟩ | ⟨hfsm', -, -, _, -, -⟩⟩ := execChunk_next_cases h
  case inl => exact absurd (hfsm.symm.trans hidle) (by simp)
  case inr.inl.inl =>
    refine .inr ⟨?_, fragmentCount_frameWire 0 rest⟩
    rw [State.classOf_eq, hfsm]
    exact classify_frameWire hadmits .assembling rest
  case inr.inl.inr => cases hidle
  case inr.inr.inl.inl =>
    refine .inl ⟨?_, (countDown_eq_zero hfits).mp hcount⟩
    rw [State.classOf_eq, hfsm]
    exact classify_assembling hne hmagic
  case inr.inr.inl.inr => exact absurd (hfsm.symm.trans hidle) (by simp)
  case inr.inr.inr => exact absurd (hfsm.symm.trans hfsm') (by simp)

/-- Settles O27: of the direct operations only `RESET` writes `fsm`, of the chunks the last fragment and a whole restart. -/
theorem onlyExitsFromAssembling : Obligations.OnlyExitsFromAssembling := by
  intro s t hfsm hfits h hidle
  have hkept : t.fsm ≠ s.fsm := by simp [hfsm, hidle]
  obtain ⟨-, rfl⟩ | ⟨op, waiting, hin, ⟨bytes, ctx, rfl, hchunk⟩ | ⟨_, rfl, -⟩ | ⟨_, _, -, -, rfl⟩ | ⟨rfl, -⟩⟩ :=
    step_next_cases h
  case inl => exact absurd rfl hkept
  case inr.inl =>
    exact .inr ⟨bytes, ctx, waiting, hin, execChunk_exits (s := { s with input := waiting }) hfsm hfits hchunk hidle⟩
  case inr.inr.inl => exact absurd rfl hkept
  case inr.inr.inr.inl => exact absurd rfl hkept
  case inr.inr.inr.inr => exact .inl ⟨waiting, hin⟩

/-- Settles O28: the classifier's two events need `Idle`; a fragment that is not the last only moves `acc` and `rem`. -/
theorem classifierSilentWhileAssembling : Obligations.ClassifierSilentWhileAssembling := by
  intro s t bytes ctx hfsm h
  constructor
  · obtain ⟨es, hes, hemits⟩ := execChunk_emits h
    refine ⟨es, hes, fun e he => ?_⟩
    have hvalidation : ∀ frame, (∀ x, validation frame ctx ≠ .modbusExchange x) ∧
        ∀ r, validation frame ctx ≠ .unrecognized r := fun frame =>
      ⟨fun x heq => by simpa [heq] using validation_isOutcome frame ctx,
        fun r heq => by simpa [heq] using validation_isOutcome frame ctx⟩
    cases hemits with
    | nothing => cases he
    | exchange x hidle => exact absurd (hfsm.symm.trans hidle) (by simp)
    | unrecognized hidle => exact absurd (hfsm.symm.trans hidle) (by simp)
    | frame buf =>
      obtain rfl | rfl : e = .frameEmitted buf ∨ e = validation buf ctx := by simpa using he
      · simp
      · exact hvalidation buf
    | abandoned =>
      obtain rfl : e = .assemblyAbandoned s.acc := by simpa using he
      simp
    | abandonedFrame =>
      obtain rfl | rfl | rfl : e = .assemblyAbandoned s.acc ∨ e = .frameEmitted bytes ∨ e = validation bytes ctx := by
        simpa using he
      · simp
      · simp
      · exact hvalidation bytes
  · intro hne hmagic hrem hfits
    have hcls : s.classOf bytes = .fragment := by
      rw [State.classOf_eq, hfsm]; exact classify_assembling hne hmagic
    have hlen : withinBound s.cfg.maxChunkLen bytes.length = true := (execChunk_next_cases h).1
    rw [exec, execChunk_fragment ctx hfsm hne hmagic, execFragment_eq ctx hlen hcls,
      countDown_of_pos (by omega) hfits, if_neg (show s.rem - 1 ≠ 0 by omega)] at h
    split_ifs at h
    cases h
    exact ⟨rfl, rfl, hfsm, rfl⟩

/-- Settles O29: such a chunk is empty or reports one event. -/
theorem idleNonFrameTouchesNoRegister : Obligations.IdleNonFrameTouchesNoRegister := by
  intro s t bytes ctx hfsm hmagic h
  obtain ⟨-, ⟨-, rfl⟩ | ⟨n, rest, rfl, hadmits, -⟩ | ⟨hassembling, -⟩ | ⟨-, -, -, _, rfl, -⟩⟩ := execChunk_next_cases h
  · exact ⟨rfl, rfl, rfl⟩
  · simp [hadmits] at hmagic
  · exact absurd (hfsm.symm.trans hassembling) (by simp)
  · exact ⟨rfl, rfl, rfl⟩

/-! ### A whole assembly (R139) -/

theorem run_succ_of_step (M : Host.Core) {s t : M.State} (h : M.step s = .next t) (k : Nat) :
    M.run (k + 1) s = M.run k t := by
  rw [Host.Core.run, h]

/-- A chunk with its context that is a fragment wherever a frame is being assembled (R134, R34). -/
def FragmentPresented (cfg : Config) (f : Buffer × DevId) : Prop :=
  f.1 ≠ [] ∧ isMagic cfg.magic3Mask f.1 = false ∧ fitsDevId cfg.devIdWidth f.2 = true

/-- One awaited fragment, in a build with unbounded buffers. -/
theorem step_fragment {s : State} {f : Buffer × DevId} {waiting : List Operation} (hfsm : s.fsm = .assembling)
    (hunbounded : Unbounded s.cfg) (hpos : 1 ≤ s.rem) (hrange : s.rem ≤ 15) (hf : FragmentPresented s.cfg f)
    (hin : s.input = .chunk f.1 f.2 :: waiting) :
    step s =
      if s.rem = 1 then
        .next { s with
          fsm := .idle, rem := 0, acc := [], result := .nothing, input := waiting,
          events := s.events ++ [.frameEmitted (s.acc ++ f.1), validation (s.acc ++ f.1) f.2] }
      else .next { s with rem := s.rem - 1, acc := s.acc ++ f.1, result := .nothing, input := waiting } := by
  obtain ⟨hne, hmagic, hctx⟩ := hf
  obtain ⟨hcap, hlen⟩ := hunbounded
  rw [step_chunk hin, execChunk_fragment (s := { s with input := waiting }) f.2 hfsm hne hmagic]
  exact fragmentAppendsAndCounts { s with input := waiting } f.1 f.2 hfsm hpos (lt_of_countInRange hrange) hne hctx hmagic
    (by simp [hlen]) (by simp [hcap])

/-- The rest of an assembly: the awaited fragments, one a step, the last of which completes the frame. -/
theorem run_fragments (middle : List (Buffer × DevId)) (last : Buffer × DevId) (waiting : List Operation) (s : State)
    (hfsm : s.fsm = .assembling) (hunbounded : Unbounded s.cfg) (hrem : s.rem = middle.length + 1) (hrange : s.rem ≤ 15)
    (hfragments : ∀ f ∈ middle ++ [last], FragmentPresented s.cfg f)
    (hin : s.input = (middle ++ [last]).map (fun f => Operation.chunk f.1 f.2) ++ waiting) :
    Host.Core.run Sys2Proof.core s.rem s =
      .next { s with
        fsm := .idle, rem := 0, acc := [], result := .nothing, input := waiting,
        events := s.events ++ [.frameEmitted (s.acc ++ (middle.map Prod.fst).flatten ++ last.1),
          validation (s.acc ++ (middle.map Prod.fst).flatten ++ last.1) last.2] } := by
  induction middle generalizing s with
  | nil =>
    have hone : s.rem = 1 := hrem
    have hstep := step_fragment hfsm hunbounded (by omega) hrange (hfragments last (by simp)) hin
    rw [if_pos hone] at hstep
    rw [hone, run_succ_of_step Sys2Proof.core hstep]
    simp [Host.Core.run]
  | cons f middle ih =>
    have hstep := step_fragment hfsm hunbounded (by omega) hrange (hfragments f (by simp)) hin
    rw [if_neg (by rw [hrem, List.length_cons]; omega)] at hstep
    have hrest := ih { s with
        rem := s.rem - 1, acc := s.acc ++ f.1, result := .nothing,
        input := (middle ++ [last]).map (fun f => Operation.chunk f.1 f.2) ++ waiting }
      hfsm hunbounded (by simp [hrem]) (by simp only; omega) (fun g hg => hfragments g (by simp at hg ⊢; tauto)) rfl
    obtain ⟨k, hk⟩ : ∃ k, s.rem = k + 1 := ⟨_, hrem⟩
    rw [hk, run_succ_of_step Sys2Proof.core hstep]
    simpa [hk] using hrest

/-- Settles O30: the start chunk loads its count, and the fragments after it are as many. -/
theorem assemblyYieldsConcatenation : Obligations.AssemblyYieldsConcatenation := by
  intro s n rest ctx middle last lastCtx waiting hfsm hunbounded hadmits hcount hctx hfragments hin
  obtain ⟨hcap, hlen⟩ := hunbounded
  have hn : n ≠ 0 := by rintro rfl; simp at hcount
  obtain ⟨queue, hqueue⟩ :
      ∃ queue, queue = (middle ++ [(last, lastCtx)]).map (fun f => Operation.chunk f.1 f.2) ++ waiting := ⟨_, rfl⟩
  rw [← hqueue] at hin
  have hstart : step s = .next { s with
      fsm := .assembling, rem := n.toNat, acc := frameWire n rest, input := queue, result := .nothing } := by
    rw [step_chunk hin, execChunk_frameStart (s := { s with input := queue }) rest ctx hfsm hadmits]
    have h := frameStartStoresChunk { s with input := queue } n rest ctx hfsm hctx hadmits (by simp [hlen]) (by simp [hcap])
    rwa [if_neg hn] at h
  rw [run_succ_of_step Sys2Proof.core hstart]
  exact run_fragments middle (last, lastCtx) waiting { s with
      fsm := .assembling, rem := n.toNat, acc := frameWire n rest, input := queue, result := .nothing }
    rfl ⟨hcap, hlen⟩ hcount.symm (Nat.le_of_lt_succ n.isLt) hfragments hqueue

end Sys2Proof.Machine
end
